-- ==== Sys2Proof/Word.lean ====
section
/-! DEFINITION. The word types of the manual: bits are numbered from 0 at the least significant end (00 R6). -/

namespace Sys2Proof

/-- One byte. -/
abbrev Byte := BitVec 8
/-- A 64-bit word: scalars, descriptor words, frame words. -/
abbrev W64 := BitVec 64
/-- A 32-bit word: registers, bell counts, tile elements. -/
abbrev W32 := BitVec 32
/-- A 36-bit program-store word (02 R41). -/
abbrev W36 := BitVec 36
/-- The number of a scalar register, a v-register or a tile (0-31). -/
abbrev R5 := BitVec 5

/-- Cells of a memory outside the device (address, byte), as the outside world supplies them. -/
abbrev Cells := List (Nat × Byte)

end Sys2Proof
end

