-- ==== Sys2Proof/Syntax.lean ====
section
/-! DEFINITION. Commands: one constructor of `Instr` for each row of the table of steps, with the row's operands. Bench
instructions carry their operand fields as the formats of the manual lay them out (tables 2.4, 3.3, 4.3, 5.2, 6.8, 7.1, 8.2,
8.4, 8.5 and 11.1), reserved fields included, so that an encoding with a non-zero reserved field is a command too. -/

namespace Sys2Proof

/-! ## Unit numbers (00 R4, 01 R21, R22) -/

abbrev BenchId := Fin 256
abbrev ShopId := Fin 16
abbrev HallId := Fin 4
abbrev FnId := Fin 64
abbrev RingId := Fin 4096
abbrev SlotId := Fin 64
abbrev HopperId := Fin 1024
abbrev PortId := Fin 12
abbrev LinkId := Fin 4
abbrev PeerId := BitVec 12

/-! ## Operand formats of the instruction words. Field `cond` is bits [35:32]: NEG and CSEL (02 Table 2.1). -/

/-- Format R (Table 2.4); the command names FN. -/
structure FmtR where
  cond : BitVec 4 := 0
  rd : BitVec 5 := 0
  ra : BitVec 5 := 0
  rb : BitVec 5 := 0
  sf : BitVec 1 := 0
  deriving DecidableEq, Repr

/-- The instruction word of FmtR (bits [35:0]). -/
def FmtR.word (f : FmtR) (opc : BitVec 8) (fn : BitVec 8) : W36 :=
  f.cond ++ opc ++ f.rd ++ f.ra ++ f.rb ++ f.sf ++ fn

/-- Format I (Table 2.4). -/
structure FmtI where
  cond : BitVec 4 := 0
  rd : BitVec 5 := 0
  ra : BitVec 5 := 0
  sf : BitVec 1 := 0
  imm : BitVec 13 := 0
  deriving DecidableEq, Repr

/-- The instruction word of FmtI (bits [35:0]). -/
def FmtI.word (f : FmtI) (opc : BitVec 8) : W36 :=
  f.cond ++ opc ++ f.rd ++ f.ra ++ f.sf ++ f.imm

/-- Format SH (Table 2.4). -/
structure FmtSH where
  cond : BitVec 4 := 0
  rd : BitVec 5 := 0
  ra : BitVec 5 := 0
  sf : BitVec 1 := 0
  kind : BitVec 2 := 0
  rsv : BitVec 5 := 0
  shamt : BitVec 6 := 0
  deriving DecidableEq, Repr

/-- The instruction word of FmtSH (bits [35:0]). -/
def FmtSH.word (f : FmtSH) (opc : BitVec 8) : W36 :=
  f.cond ++ opc ++ f.rd ++ f.ra ++ f.sf ++ f.kind ++ f.rsv ++ f.shamt

/-- Format X (Table 2.4) with its immediate word. -/
structure FmtX where
  cond : BitVec 4 := 0
  rd : BitVec 5 := 0
  ra : BitVec 5 := 0
  sf : BitVec 1 := 0
  rsv : BitVec 13 := 0
  imm : W36 := 0
  deriving DecidableEq, Repr

/-- The instruction word of FmtX (bits [35:0]). -/
def FmtX.word (f : FmtX) (opc : BitVec 8) : W36 :=
  f.cond ++ opc ++ f.rd ++ f.ra ++ f.sf ++ f.rsv

/-- Format P (Table 2.4). -/
structure FmtP where
  cond : BitVec 4 := 0
  pd : BitVec 2 := 0
  rel : BitVec 3 := 0
  ra : BitVec 5 := 0
  rb : BitVec 5 := 0
  rsv : BitVec 9 := 0
  deriving DecidableEq, Repr

/-- The instruction word of FmtP (bits [35:0]). -/
def FmtP.word (f : FmtP) (opc : BitVec 8) : W36 :=
  f.cond ++ opc ++ f.pd ++ f.rel ++ f.ra ++ f.rb ++ f.rsv

/-- Format M (Table 2.4). -/
structure FmtM where
  cond : BitVec 4 := 0
  rt : BitVec 5 := 0
  ra : BitVec 5 := 0
  sz : BitVec 2 := 0
  sx : BitVec 1 := 0
  off : BitVec 11 := 0
  deriving DecidableEq, Repr

/-- The instruction word of FmtM (bits [35:0]). -/
def FmtM.word (f : FmtM) (opc : BitVec 8) : W36 :=
  f.cond ++ opc ++ f.rt ++ f.ra ++ f.sz ++ f.sx ++ f.off

/-- Format S (Table 2.4). -/
structure FmtS where
  cond : BitVec 4 := 0
  rs : BitVec 5 := 0
  ra : BitVec 5 := 0
  off : BitVec 14 := 0
  deriving DecidableEq, Repr

/-- The instruction word of FmtS (bits [35:0]). -/
def FmtS.word (f : FmtS) (opc : BitVec 8) : W36 :=
  f.cond ++ opc ++ f.rs ++ f.ra ++ f.off

/-- No operands (PSYNC): the field is reserved. -/
structure FmtN where
  cond : BitVec 4 := 0
  rsv : BitVec 24 := 0
  deriving DecidableEq, Repr

/-- The instruction word of FmtN (bits [35:0]). -/
def FmtN.word (f : FmtN) (opc : BitVec 8) : W36 :=
  f.cond ++ opc ++ f.rsv

/-- Format B (Table 2.4). -/
structure FmtB where
  cond : BitVec 4 := 0
  rd : BitVec 5 := 0
  rsv : BitVec 3 := 0
  disp : BitVec 16 := 0
  deriving DecidableEq, Repr

/-- The instruction word of FmtB (bits [35:0]). -/
def FmtB.word (f : FmtB) (opc : BitVec 8) : W36 :=
  f.cond ++ opc ++ f.rd ++ f.rsv ++ f.disp

/-- Format J (Table 2.4). -/
structure FmtJ where
  cond : BitVec 4 := 0
  rd : BitVec 5 := 0
  ra : BitVec 5 := 0
  rsv : BitVec 14 := 0
  deriving DecidableEq, Repr

/-- The instruction word of FmtJ (bits [35:0]). -/
def FmtJ.word (f : FmtJ) (opc : BitVec 8) : W36 :=
  f.cond ++ opc ++ f.rd ++ f.ra ++ f.rsv

/-- Format L (Table 2.4). -/
structure FmtL where
  cond : BitVec 4 := 0
  rsv1 : BitVec 5 := 0
  ra : BitVec 5 := 0
  rsv2 : BitVec 2 := 0
  len : BitVec 12 := 0
  deriving DecidableEq, Repr

/-- The instruction word of FmtL (bits [35:0]). -/
def FmtL.word (f : FmtL) (opc : BitVec 8) : W36 :=
  f.cond ++ opc ++ f.rsv1 ++ f.ra ++ f.rsv2 ++ f.len

/-- Format LI (Table 2.4). -/
structure FmtLI where
  cond : BitVec 4 := 0
  cnt : BitVec 12 := 0
  len : BitVec 12 := 0
  deriving DecidableEq, Repr

/-- The instruction word of FmtLI (bits [35:0]). -/
def FmtLI.word (f : FmtLI) (opc : BitVec 8) : W36 :=
  f.cond ++ opc ++ f.cnt ++ f.len

/-- Format LP (Table 2.4). -/
structure FmtLP where
  cond : BitVec 4 := 0
  rsv : BitVec 22 := 0
  nm1 : BitVec 2 := 0
  deriving DecidableEq, Repr

/-- The instruction word of FmtLP (bits [35:0]). -/
def FmtLP.word (f : FmtLP) (opc : BitVec 8) : W36 :=
  f.cond ++ opc ++ f.rsv ++ f.nm1

/-- Format C (Table 2.4). -/
structure FmtC where
  cond : BitVec 4 := 0
  sreg : BitVec 8 := 0
  rx : BitVec 5 := 0
  rsv : BitVec 11 := 0
  deriving DecidableEq, Repr

/-- The instruction word of FmtC (bits [35:0]). -/
def FmtC.word (f : FmtC) (opc : BitVec 8) : W36 :=
  f.cond ++ opc ++ f.sreg ++ f.rx ++ f.rsv

/-- TRAP (Table 3.3). -/
structure FmtTrap where
  cond : BitVec 4 := 0
  tgt : BitVec 1 := 0
  rsv : BitVec 7 := 0
  code : BitVec 16 := 0
  deriving DecidableEq, Repr

/-- The instruction word of FmtTrap (bits [35:0]). -/
def FmtTrap.word (f : FmtTrap) (opc : BitVec 8) : W36 :=
  f.cond ++ opc ++ f.tgt ++ f.rsv ++ f.code

/-- RETX (Table 3.3). -/
structure FmtRetx where
  cond : BitVec 4 := 0
  rsv : BitVec 22 := 0
  adv : BitVec 2 := 0
  deriving DecidableEq, Repr

/-- The instruction word of FmtRetx (bits [35:0]). -/
def FmtRetx.word (f : FmtRetx) (opc : BitVec 8) : W36 :=
  f.cond ++ opc ++ f.rsv ++ f.adv

/-- RESEAL (Table 3.3). -/
structure FmtReseal where
  cond : BitVec 4 := 0
  rd : BitVec 5 := 0
  ra : BitVec 5 := 0
  rsv : BitVec 14 := 0
  deriving DecidableEq, Repr

/-- The instruction word of FmtReseal (bits [35:0]). -/
def FmtReseal.word (f : FmtReseal) (opc : BitVec 8) : W36 :=
  f.cond ++ opc ++ f.rd ++ f.ra ++ f.rsv

/-- Format VS (Table 4.3). -/
structure FmtVS where
  cond : BitVec 4 := 0
  rd : BitVec 5 := 0
  ra : BitVec 5 := 0
  sew : BitVec 2 := 0
  grp : BitVec 2 := 0
  fpk : BitVec 1 := 0
  rsv : BitVec 9 := 0
  deriving DecidableEq, Repr

/-- The instruction word of FmtVS (bits [35:0]). -/
def FmtVS.word (f : FmtVS) (opc : BitVec 8) : W36 :=
  f.cond ++ opc ++ f.rd ++ f.ra ++ f.sew ++ f.grp ++ f.fpk ++ f.rsv

/-- Format VC (Table 4.3). -/
structure FmtVC where
  cond : BitVec 4 := 0
  rd : BitVec 5 := 0
  ra : BitVec 5 := 0
  w : BitVec 1 := 0
  rsv : BitVec 5 := 0
  csr : BitVec 8 := 0
  deriving DecidableEq, Repr

/-- The instruction word of FmtVC (bits [35:0]). -/
def FmtVC.word (f : FmtVC) (opc : BitVec 8) : W36 :=
  f.cond ++ opc ++ f.rd ++ f.ra ++ f.w ++ f.rsv ++ f.csr

/-- Format VV (Table 4.3); the command names FN. -/
structure FmtVV where
  cond : BitVec 4 := 0
  vd : BitVec 5 := 0
  va : BitVec 5 := 0
  vb : BitVec 5 := 0
  ms : BitVec 3 := 0
  mz : BitVec 1 := 0
  src : BitVec 2 := 0
  deriving DecidableEq, Repr

/-- The instruction word of FmtVV (bits [35:0]). -/
def FmtVV.word (f : FmtVV) (opc : BitVec 8) (fn : BitVec 3) : W36 :=
  f.cond ++ opc ++ f.vd ++ f.va ++ f.vb ++ f.ms ++ f.mz ++ f.src ++ fn

/-- Format VM (Table 4.3). -/
structure FmtVM where
  cond : BitVec 4 := 0
  vd : BitVec 5 := 0
  ra : BitVec 5 := 0
  rb : BitVec 5 := 0
  ms : BitVec 3 := 0
  mz : BitVec 1 := 0
  sp : BitVec 1 := 0
  ix : BitVec 1 := 0
  rsv : BitVec 3 := 0
  deriving DecidableEq, Repr

/-- The instruction word of FmtVM (bits [35:0]). -/
def FmtVM.word (f : FmtVM) (opc : BitVec 8) : W36 :=
  f.cond ++ opc ++ f.vd ++ f.ra ++ f.rb ++ f.ms ++ f.mz ++ f.sp ++ f.ix ++ f.rsv

/-- Format VX (Table 4.3). -/
structure FmtVX where
  cond : BitVec 4 := 0
  vd : BitVec 5 := 0
  va : BitVec 5 := 0
  dfmt : BitVec 4 := 0
  sfmt : BitVec 4 := 0
  ms : BitVec 3 := 0
  mz : BitVec 1 := 0
  sat : BitVec 1 := 0
  rsv : BitVec 1 := 0
  deriving DecidableEq, Repr

/-- The instruction word of FmtVX (bits [35:0]). -/
def FmtVX.word (f : FmtVX) (opc : BitVec 8) : W36 :=
  f.cond ++ opc ++ f.vd ++ f.va ++ f.dfmt ++ f.sfmt ++ f.ms ++ f.mz ++ f.sat ++ f.rsv

/-- Format VT (Table 4.3). -/
structure FmtVT where
  cond : BitVec 4 := 0
  vd : BitVec 5 := 0
  ra : BitVec 5 := 0
  t : BitVec 5 := 0
  ms : BitVec 3 := 0
  mz : BitVec 1 := 0
  rsv : BitVec 5 := 0
  deriving DecidableEq, Repr

/-- The instruction word of FmtVT (bits [35:0]). -/
def FmtVT.word (f : FmtVT) (opc : BitVec 8) : W36 :=
  f.cond ++ opc ++ f.vd ++ f.ra ++ f.t ++ f.ms ++ f.mz ++ f.rsv

/-- Format F (Table 5.2). -/
structure FmtF where
  cond : BitVec 4 := 0
  t : BitVec 5 := 0
  ra : BitVec 5 := 0
  rb : BitVec 5 := 0
  fmt : BitVec 4 := 0
  ovw : BitVec 1 := 0
  rnd : BitVec 2 := 0
  clamp : BitVec 1 := 0
  wide : BitVec 1 := 0
  deriving DecidableEq, Repr

/-- The instruction word of FmtF (bits [35:0]). -/
def FmtF.word (f : FmtF) (opc : BitVec 8) : W36 :=
  f.cond ++ opc ++ f.t ++ f.ra ++ f.rb ++ f.fmt ++ f.ovw ++ f.rnd ++ f.clamp ++ f.wide

/-- Format G (Table 5.2). -/
structure FmtG where
  cond : BitVec 4 := 0
  t : BitVec 5 := 0
  ra : BitVec 5 := 0
  rb : BitVec 5 := 0
  fmt : BitVec 4 := 0
  ovw : BitVec 1 := 0
  gop : BitVec 3 := 0
  wide : BitVec 1 := 0
  deriving DecidableEq, Repr

/-- The instruction word of FmtG (bits [35:0]). -/
def FmtG.word (f : FmtG) (opc : BitVec 8) : W36 :=
  f.cond ++ opc ++ f.t ++ f.ra ++ f.rb ++ f.fmt ++ f.ovw ++ f.gop ++ f.wide

/-- Format PL (Table 5.2). -/
structure FmtPL where
  cond : BitVec 4 := 0
  rsv1 : BitVec 5 := 0
  ra : BitVec 5 := 0
  rb : BitVec 5 := 0
  pl : BitVec 1 := 0
  rsv2 : BitVec 8 := 0
  deriving DecidableEq, Repr

/-- The instruction word of FmtPL (bits [35:0]). -/
def FmtPL.word (f : FmtPL) (opc : BitVec 8) : W36 :=
  f.cond ++ opc ++ f.rsv1 ++ f.ra ++ f.rb ++ f.pl ++ f.rsv2

/-- Format TS (Table 5.2). -/
structure FmtTS where
  cond : BitVec 4 := 0
  rd : BitVec 5 := 0
  ra : BitVec 5 := 0
  rsv : BitVec 14 := 0
  deriving DecidableEq, Repr

/-- The instruction word of FmtTS (bits [35:0]). -/
def FmtTS.word (f : FmtTS) (opc : BitVec 8) : W36 :=
  f.cond ++ opc ++ f.rd ++ f.ra ++ f.rsv

/-- SEED (Table 6.8). -/
structure FmtSeed where
  cond : BitVec 4 := 0
  rsv1 : BitVec 5 := 0
  ra : BitVec 5 := 0
  rsv2 : BitVec 14 := 0
  deriving DecidableEq, Repr

/-- The instruction word of FmtSeed (bits [35:0]). -/
def FmtSeed.word (f : FmtSeed) (opc : BitVec 8) : W36 :=
  f.cond ++ opc ++ f.rsv1 ++ f.ra ++ f.rsv2

/-- Format D (Table 7.1). -/
structure FmtD where
  cond : BitVec 4 := 0
  t : BitVec 5 := 0
  ra : BitVec 5 := 0
  rb : BitVec 5 := 0
  rc : BitVec 5 := 0
  wide : BitVec 1 := 0
  rsv : BitVec 3 := 0
  deriving DecidableEq, Repr

/-- The instruction word of FmtD (bits [35:0]). -/
def FmtD.word (f : FmtD) (opc : BitVec 8) : W36 :=
  f.cond ++ opc ++ f.t ++ f.ra ++ f.rb ++ f.rc ++ f.wide ++ f.rsv

/-- FENCE (Table 8.2); the command names SCOPE. -/
structure FmtFence where
  cond : BitVec 4 := 0
  lq : BitVec 1 := 0
  fq : BitVec 1 := 0
  rsv : BitVec 19 := 0
  deriving DecidableEq, Repr

/-- The instruction word of FmtFence (bits [35:0]). -/
def FmtFence.word (f : FmtFence) (opc : BitVec 8) (scope : BitVec 3) : W36 :=
  f.cond ++ opc ++ scope ++ f.lq ++ f.fq ++ f.rsv

/-- CINV (Table 8.4). -/
structure FmtCinv where
  cond : BitVec 4 := 0
  lvl : BitVec 2 := 0
  rsv1 : BitVec 3 := 0
  ra : BitVec 5 := 0
  rb : BitVec 5 := 0
  rsv2 : BitVec 9 := 0
  deriving DecidableEq, Repr

/-- The instruction word of FmtCinv (bits [35:0]). -/
def FmtCinv.word (f : FmtCinv) (opc : BitVec 8) : W36 :=
  f.cond ++ opc ++ f.lvl ++ f.rsv1 ++ f.ra ++ f.rb ++ f.rsv2

/-- Atomic operation (Table 8.5); the command names AOP. -/
structure FmtAtom where
  cond : BitVec 4 := 0
  rd : BitVec 5 := 0
  ra : BitVec 5 := 0
  rb : BitVec 5 := 0
  sz : BitVec 1 := 0
  sp : BitVec 1 := 0
  mo : BitVec 3 := 0
  deriving DecidableEq, Repr

/-- The instruction word of FmtAtom (bits [35:0]). -/
def FmtAtom.word (f : FmtAtom) (opc : BitVec 8) (aop : BitVec 4) : W36 :=
  f.cond ++ opc ++ f.rd ++ f.ra ++ f.rb ++ aop ++ f.sz ++ f.sp ++ f.mo

/-- RING (Table 11.1); the command names OP. -/
structure FmtRing where
  cond : BitVec 4 := 0
  scope : BitVec 3 := 0
  ra : BitVec 5 := 0
  rb : BitVec 5 := 0
  imm : BitVec 9 := 0
  deriving DecidableEq, Repr

/-- The instruction word of FmtRing (bits [35:0]). -/
def FmtRing.word (f : FmtRing) (opc : BitVec 8) (op : BitVec 2) : W36 :=
  f.cond ++ opc ++ f.scope ++ op ++ f.ra ++ f.rb ++ f.imm

/-- WAIT (Table 11.1); the command names ASYNC. -/
structure FmtWait where
  cond : BitVec 4 := 0
  scope : BitVec 3 := 0
  rsv1 : BitVec 1 := 0
  ra : BitVec 5 := 0
  rb : BitVec 5 := 0
  rsv2 : BitVec 9 := 0
  deriving DecidableEq, Repr

/-- The instruction word of FmtWait (bits [35:0]). -/
def FmtWait.word (f : FmtWait) (opc : BitVec 8) (async : BitVec 1) : W36 :=
  f.cond ++ opc ++ f.scope ++ async ++ f.rsv1 ++ f.ra ++ f.rb ++ f.rsv2

/-- PEAL (Table 11.1). -/
structure FmtPeal where
  cond : BitVec 4 := 0
  scope : BitVec 3 := 0
  rsv1 : BitVec 2 := 0
  ra : BitVec 5 := 0
  rb : BitVec 5 := 0
  rd : BitVec 5 := 0
  rsv2 : BitVec 4 := 0
  deriving DecidableEq, Repr

/-- The instruction word of FmtPeal (bits [35:0]). -/
def FmtPeal.word (f : FmtPeal) (opc : BitVec 8) : W36 :=
  f.cond ++ opc ++ f.scope ++ f.rsv1 ++ f.ra ++ f.rb ++ f.rd ++ f.rsv2

/-- CHIME (Table 11.1). -/
structure FmtChime where
  cond : BitVec 4 := 0
  scope : BitVec 3 := 0
  rsv1 : BitVec 2 := 0
  ra : BitVec 5 := 0
  rb : BitVec 5 := 0
  imm : BitVec 9 := 0
  deriving DecidableEq, Repr

/-- The instruction word of FmtChime (bits [35:0]). -/
def FmtChime.word (f : FmtChime) (opc : BitVec 8) : W36 :=
  f.cond ++ opc ++ f.scope ++ f.rsv1 ++ f.ra ++ f.rb ++ f.imm

/-! ## Engine instructions, as their queue entries name them -/

/-- Operations of format VV (Table 4.4). -/
inductive VvOp where
  | vadd | vsub | vrsub | vand | vor | vxor | vsll | vsrl | vsra | vmin | vmax | vminu | vmaxu | vmul | vmulh | vmulhu
  | vaddsat | vaddsatu | vsubsat | vsubsatu | vavg | vavgu | vfrmul | vshrr | vshrra | vclipnu | vclipn
  | vfadd | vfsub | vfmul | vfdiv | vfsqrt | vfminnum | vfmaxnum | vfmin | vfmax | vfabs | vfneg
  | vfma | vfms | vfnma | vfnms
  | vceq | vcne | vclt | vcge | vcltu | vcgeu | vfceq | vfclt | vfcle | vfcun
  | vrsum | vrmax | vrmin | vrmaxu | vrminu | vfrsum | vfrmax | vfrmin
  | mand | mor | mxor | mandn | mnot | mset | mclr | vmpop | vmfirst
  | vmv | vmerge | vext | vins | vid
  deriving DecidableEq, Repr

/-- Memory operations of format VM (Table 4.4). -/
inductive VmOp where
  | vld | vst | vlds | vsts | vgath | vscat | vgathFf
  deriving DecidableEq, Repr

/-- An instruction of the lathe queue or of the forge queue. -/
inductive EngInstr where
  | vsetl (f : FmtVS)
  | vcsr (f : FmtVC)
  | vm (op : VmOp) (f : FmtVM)
  | vv (op : VvOp) (f : FmtVV)
  | vcvt (f : FmtVX)
  | vtld (f : FmtVT)
  | vtst (f : FmtVT)
  | fop (f : FmtF)
  | fgauge (f : FmtG)
  | pload (f : FmtPL)
  | tsync (f : FmtTS)
  | seed (f : FmtSeed)
  | drain (clear : Bool) (f : FmtD)
  deriving DecidableEq, Repr

/-! ## Operands of the device's other steps -/

/-- A carter (10 Table 10.1). -/
inductive CarterId where
  | bench (c : Fin 512)
  | shop (c : Fin 32)
  | link (c : Fin 16)
  deriving DecidableEq, Repr

/-- An engine that makes translated requests. -/
inductive Engine where
  | core (b : BenchId)
  | lathe (b : BenchId)
  | ladle (b : BenchId)
  | carter (c : CarterId)
  | quarter (q : HallId)
  deriving DecidableEq, Repr

/-- Access kinds of a walk (09 R281). -/
inductive Acc where
  | read | write | rmw
  deriving DecidableEq, Repr

/-- How a request outside the device ended (12 R392, 14 R436). -/
inductive ExtStatus where
  | ok | link | poison | timeout | denied
  deriving DecidableEq, Repr

/-- Why EXCEPTION_ENTRY is commanded: an interrupt point, or the decoding of a word that no other command names
(Illegal or Reserved opcode, 02 R44; an uncorrectable word, R60). -/
inductive EntryWhy where
  | point
  | word (w imm : W36)
  deriving DecidableEq, Repr

/-- A residue mismatch that the hardware meets: in heat, row or element group `at_`, in physical row `row`;
`storage` when it lies in crucible storage (07 Table 7.9). -/
structure Mismatch where
  at_ : Nat
  row : BitVec 7 := 0
  storage : Bool := false
  deriving DecidableEq, Repr

/-- How far a lathe instruction comes with one command: the residue mismatches that the hardware meets, by element group (04 R147), and the
number of element groups after which a preemption or quench stops it, when not at its end (R149). -/
structure Pace where
  mism : List Nat := []
  stop : Option Nat := none
  deriving DecidableEq, Repr

/-- The fields of an instruction that moves elements or rows, and the number of them after which a preemption or quench stops it, when not at
its end (04 R149; 07 R229). -/
structure Moving (α : Type) where
  f : α
  stop : Option Nat := none
  deriving DecidableEq, Repr

/-- What a memory request does (13 R398, 08 Table 8.6). -/
inductive ReqOp where
  | read
  | write (data : List Byte)
  | atomic (aop : BitVec 4) (wide : Bool) (operand expect : W64)
  deriving DecidableEq, Repr

/-- A request at a memory controller or arbiter: it carries its hallmark and share mask (09 R283, R306). -/
structure MemReq where
  dpa : Nat
  len : Nat := 8
  op : ReqOp := .read
  hmk : BitVec 12 := 0
  smask : BitVec 16 := 0
  watched : Bool := false
  deriving DecidableEq, Repr

/-- A memory channel: of an ingot stack or of a yard group (13 Table 13.1). -/
inductive Channel where
  | ingot (s : ShopId) (c : Fin 8)
  | yard (g : Fin 8) (c : Fin 32)
  deriving DecidableEq, Repr

/-- A stack or a yard group (13 R400). -/
inductive MemUnit where
  | stack (s : ShopId)
  | group (g : Fin 8)
  deriving DecidableEq, Repr

/-- An error of a 64-byte line's stored bytes: one wrong symbol, or more than its code can correct (13 R406). -/
inductive LineErr where
  | one | many
  deriving DecidableEq, Repr

/-- Errors that have arisen since the last command: 64-byte lines, by DPA, and what has become of them. -/
abbrev LineFaults := List (Nat × LineErr)

/-- A request at a memory controller, and the errors of lines that have arisen before it. -/
structure CtrlReq where
  req : MemReq
  arisen : LineFaults := []
  deriving DecidableEq, Repr

/-- A ring that is disabled, and the contents of host memory that a turn reads which is at work on it then (12 R386). -/
structure RingStop where
  ring : RingId
  turn : Option Cells := none
  deriving DecidableEq, Repr

/-- A lane that has lost lock, or `corrected` of its symbols within 2^20 F-cycles (14 R431). -/
structure LaneLoss where
  lane : Fin 8
  corrected : Option Nat := none
  deriving DecidableEq, Repr

/-- Bits that have flipped in the three copies of a register, by its register-space offset, or of its mould (16 R477). -/
structure Flip where
  off : Nat
  mould : Bool := false
  x : W32 := 0
  y : W32 := 0
  z : W32 := 0
  deriving DecidableEq, Repr

/-- How a retrain slice ended (13 R419). -/
inductive SliceResult where
  | more | done | failed
  deriving DecidableEq, Repr

/-- A waiter of a bell: a bench in WAIT or PEAL, or the BWAIT of a ring's stream. -/
inductive BellWaiter where
  | bench (b : BenchId)
  | ring (r : RingId)
  deriving DecidableEq, Repr

/-- A block that drains (16 Table 16.4), or a local ring (10 R529). -/
inductive DrainUnit where
  | bench (b : BenchId)
  | carter (c : CarterId)
  | hopper (h : HopperId)
  | ring (r : RingId)
  | port (p : PortId)
  | quarter (q : HallId)
  | fn (f : FnId)
  | localRing (c : CarterId)
  deriving DecidableEq, Repr

/-- The path a register access takes (16 R469). -/
inductive RegPath where
  | pf | sideband | master (b : BenchId) | fn (f : FnId)
  deriving DecidableEq, Repr

/-- The fields of an ALLOY_HELLO (14 R443). -/
structure Hello where
  cid : BitVec 16
  form : BitVec 4
  op : BitVec 3
  fmt : BitVec 4
  acc : Bool
  p : BitVec 13
  root : BitVec 13
  count : BitVec 40
  rank : BitVec 13
  deriving DecidableEq, Repr

/-- A request unit (14 R429): the tag, the DPA, the hallmark, the share mask and the protection class of R285; the atomic operation and its
size; in a response, the outcome. The length of a request is the model's own field. DESIGN CHOICE, log 155. -/
structure ReqUnit where
  tag : Nat := 0
  dpa : Nat := 0
  len : Nat := 0
  hmk : BitVec 12 := 0
  smask : BitVec 16 := 0
  watched : Bool := false
  aop : BitVec 4 := 0
  wide : Bool := false
  outcome : ExtStatus := .ok
  deriving DecidableEq, Repr

/-- What a packet carries beside its route unit and data (14 Table 14.3): its request unit, or what its type makes it carry. -/
inductive PktBody where
  | none
  | req (u : ReqUnit)
  | chime (seq : W32) (resync : Bool) (hmk : BitVec 12) (bell : BitVec 16) (v : W32)
  | chimeAck (seq : W32) (refused : Bool)
  | hello (h : Hello)
  | block (cid : BitVec 16) (chunk elem : Nat) (final : Bool)
  | distress (cid : BitVec 16) (origin : PeerId) (reason : BitVec 8)
  | credit (cls : Fin 5) (layer : Fin 4) (units : Nat)
  deriving DecidableEq, Repr

/-- A packet of a dray link (14 Table 14.2). `dl` holds the DL bits of the entry that routed it, by which its LAYER rises on its way (R435);
the route unit has no place for them. DESIGN CHOICE, log 94. -/
structure Packet where
  type : BitVec 4
  layer : BitVec 2 := 0
  hop : BitVec 3 := 0
  src : PeerId := 0
  dst : PeerId := 0
  path : BitVec 24 := 0
  dl : BitVec 6 := 0
  body : PktBody := .none
  data : List Byte := []
  deriving DecidableEq, Repr

/-- A flit (14 Table 14.1). `wrong`: the bytes, of 0 to 543, that arrive other than they were sent. `payload`: the packets that begin in it;
`cont`: the units at its start that go on with the packet before. -/
structure Flit where
  wrong : List Nat := []
  seq : BitVec 12
  ack : BitVec 12
  nak : Bool := false
  idle : Bool := false
  cont : Nat := 0
  payload : List Packet := []
  deriving DecidableEq, Repr

/-- One bench's self-test findings (17 R504): failed forge rows (physical, 0-65), and a failed unit of Table 17.10. -/
structure SelfTest where
  bench : BenchId
  rows : List (BitVec 7) := []
  unit_ : Option (BitVec 8) := none
  deriving DecidableEq, Repr

/-- The straps, sampled at the release of PERST_N (18 R521). -/
structure Straps where
  slewset : BitVec 3 := 3
  pexbif : BitVec 2 := 0
  sbmode : BitVec 1 := 0
  sbaddr : BitVec 3 := 0
  deriving DecidableEq, Repr

/-- The words of a mailbox request page (17 R497): word 0, word 1, and whether a host access of the command fails. -/
structure Mbox where
  obj : Nat
  cap : Nat := 0
  fail : Bool := false
  deriving DecidableEq, Repr

/-- What Table 12.2 lists, as present or not (12 R377). -/
inductive PciCap where
  | expressEndpoint | powerD0D3hot | powerD1D2 | aspmL1 | l1Substates | l0s | l0p | msix | msi | intx | advancedErrors | sriov | pasid
  | atomicRequester | atomicCompleter | resizableBar | laneMargining | physicalLayer | dataLinkFeature | functionReset | latencyTolerance
  | ats | pri | acs | tph | doe | ide | tdisp | vpd | serialNumber | precisionTime
  deriving DecidableEq, Repr

/-- A field of a function's configuration space that a host reads (12 R377): by its name, where the manual gives no offset. -/
inductive ConfigField where
  | vendorId | deviceId | classCode | revisionId
  | totalVfs | firstVfOffset | vfStride | vfEnable
  | busMaster | msixEnable | tableSize | atomicRequester | completionTimeout | barSize
  | maxPayload | maxReadRequest
  | has (c : PciCap)
  | other (offset : BitVec 12)
  deriving DecidableEq, Repr

/-- A write, or a read, of a PCI Express configuration register by the host (12 R377). -/
inductive ConfigWrite where
  | read (x : ConfigField)
  | busMaster (v : Bool)
  | msixEnable (v : Bool)
  | vfEnable (v : Bool)
  | atomicRequester (v : Bool)
  | completionTimeout (range : BitVec 4)
  | barSize (log2MiB : BitVec 6)
  | other (offset : BitVec 12) (v : W32)
  deriving DecidableEq, Repr

/-! ## The commands -/

/-- A command: one step of the table, with its operands. -/
inductive Instr where
  /-- ADD (R47): ALU function 0x00: writes ra + rb to rd, and sets Z, N, C and V when SF = 1. -/
  | add (b : BenchId) (f : FmtR)
  /-- SUB (R47): ALU function 0x01: writes ra - rb to rd and sets the flags when SF = 1; with RD = s0 it is a compare. -/
  | sub (b : BenchId) (f : FmtR)
  /-- ADC (R47): ALU function 0x02: writes ra + rb + C to rd. -/
  | adc (b : BenchId) (f : FmtR)
  /-- SBC (R47): ALU function 0x03: writes ra - rb - (1 - C) to rd. -/
  | sbc (b : BenchId) (f : FmtR)
  /-- AND (R47): ALU function 0x04: writes the bitwise AND of ra and rb to rd. -/
  | and (b : BenchId) (f : FmtR)
  /-- OR (R47): ALU function 0x05: writes the bitwise OR of ra and rb to rd. -/
  | or (b : BenchId) (f : FmtR)
  /-- XOR (R47): ALU function 0x06: writes the bitwise XOR of ra and rb to rd. -/
  | xor (b : BenchId) (f : FmtR)
  /-- ANDN (R47): ALU function 0x07: writes ra & ~rb to rd. -/
  | andn (b : BenchId) (f : FmtR)
  /-- SLL (R47): ALU function 0x08: shifts ra left by rb[5:0]. -/
  | sll (b : BenchId) (f : FmtR)
  /-- SRL (R47): ALU function 0x09: shifts ra right by rb[5:0], logically. -/
  | srl (b : BenchId) (f : FmtR)
  /-- SRA (R47): ALU function 0x0A: shifts ra right by rb[5:0], arithmetically. -/
  | sra (b : BenchId) (f : FmtR)
  /-- ROR (R47): ALU function 0x0B: rotates ra right by rb[5:0]. -/
  | ror (b : BenchId) (f : FmtR)
  /-- MIN (R47): ALU function 0x0C: writes the signed minimum of ra and rb. -/
  | min (b : BenchId) (f : FmtR)
  /-- MAX (R47): ALU function 0x0D: writes the signed maximum of ra and rb. -/
  | max (b : BenchId) (f : FmtR)
  /-- MINU (R47): ALU function 0x0E: writes the unsigned minimum of ra and rb. -/
  | minu (b : BenchId) (f : FmtR)
  /-- MAXU (R47): ALU function 0x0F: writes the unsigned maximum of ra and rb. -/
  | maxu (b : BenchId) (f : FmtR)
  /-- CLZ (R47): ALU function 0x10: writes the number of leading zeros of ra, 0 to 64. -/
  | clz (b : BenchId) (f : FmtR)
  /-- POPC (R47): ALU function 0x11: writes the number of 1 bits in ra. -/
  | popc (b : BenchId) (f : FmtR)
  /-- ADDI (R48): Adds the sign-extended IMM13 to ra and sets flags as ADD does. -/
  | addi (b : BenchId) (f : FmtI)
  /-- ANDI (R48): ANDs ra with the sign-extended IMM13. -/
  | andi (b : BenchId) (f : FmtI)
  /-- ORI (R48): ORs ra with the sign-extended IMM13. -/
  | ori (b : BenchId) (f : FmtI)
  /-- XORI (R48): XORs ra with the sign-extended IMM13. -/
  | xori (b : BenchId) (f : FmtI)
  /-- SHI (R48): Shifts ra by SHAMT with the shift kind that KIND selects. -/
  | shi (b : BenchId) (f : FmtSH)
  /-- CMPI (R48): Sets Z, N, C and V from ra - IMM13 and writes no register. -/
  | cmpi (b : BenchId) (f : FmtI)
  /-- LI (R48): Writes the sign-extended IMM36 to rd. -/
  | li (b : BenchId) (f : FmtX)
  /-- LIH (R48): Writes IMM36[27:0] into bits [63:36] of ra and puts the result in rd. -/
  | lih (b : BenchId) (f : FmtX)
  /-- ADDL (R48): Writes ra + IMM36 to rd and sets flags as ADD does. -/
  | addl (b : BenchId) (f : FmtX)
  /-- MUL (R49): MULC function 0: writes the low 64 bits of the product. -/
  | mul (b : BenchId) (f : FmtR)
  /-- MULHU (R49): MULC function 1: writes the high 64 bits of the unsigned product. -/
  | mulhu (b : BenchId) (f : FmtR)
  /-- MULHS (R49): MULC function 2: writes the high 64 bits of the signed product. -/
  | mulhs (b : BenchId) (f : FmtR)
  /-- DIVU (R49): DIVC function 0: unsigned quotient; a divisor of 0 gives all ones. -/
  | divu (b : BenchId) (f : FmtR)
  /-- DIVS (R49): DIVC function 1: signed quotient, truncated toward zero. -/
  | divs (b : BenchId) (f : FmtR)
  /-- REMU (R49): DIVC function 2: unsigned remainder; a divisor of 0 gives ra. -/
  | remu (b : BenchId) (f : FmtR)
  /-- REMS (R49): DIVC function 3: signed remainder, with the sign of ra. -/
  | rems (b : BenchId) (f : FmtR)
  /-- PCMP (R50): Writes the relation that REL selects between ra and rb into predicate PD. -/
  | pcmp (b : BenchId) (f : FmtP)
  /-- LD (R56): Loads 1, 2, 4 or 8 bytes from the bench store at ra + OFF11. -/
  | ld (b : BenchId) (f : FmtM)
  /-- ST (R56): Stores 1, 2, 4 or 8 bytes to the bench store at ra + OFF11. -/
  | st (b : BenchId) (f : FmtM)
  /-- LDG (R56): Loads from the translated device virtual address ra + OFF11. -/
  | ldg (b : BenchId) (f : FmtM)
  /-- STG (R56): Stores to the translated device virtual address ra + OFF11. -/
  | stg (b : BenchId) (f : FmtM)
  /-- LDG_RESPONSE (R52): The memory response to an LDG reaches the core, and the waiting load writes its register and completes. -/
  | ldgResponse (b : BenchId)
  /-- STP (R61): Writes RS[35:0] with fresh check bits to program-store word ra + OFF14, subject to BEN_PGUARD. -/
  | stp (b : BenchId) (f : FmtS)
  /-- PSYNC (R68): Discards the lookahead buffer. -/
  | psync (b : BenchId) (f : FmtN)
  /-- BR (R51): Transfers to PC + DISP16 when its condition is true. -/
  | br (b : BenchId) (f : FmtB)
  /-- JAL (R51): Writes PC + 1 to RD and transfers to PC + DISP16. -/
  | jal (b : BenchId) (f : FmtB)
  /-- JR (R51): Writes the address of the next instruction to RD and transfers to RA[15:0]. -/
  | jr (b : BenchId) (f : FmtJ)
  /-- LOOP (R74): Opens a hardware loop of LEN12 words whose count is RA[31:0]. -/
  | loop (b : BenchId) (f : FmtL)
  /-- LOOPI (R74): Opens a hardware loop of LEN12 words whose count is CNT12. -/
  | loopi (b : BenchId) (f : FmtLI)
  /-- LPOP (R79): Removes the NM1 + 1 innermost loops. -/
  | lpop (b : BenchId) (f : FmtLP)
  /-- MSET (R80): Copies RX into a special register, subject to its level and writability. -/
  | mset (b : BenchId) (f : FmtC)
  /-- MGET (R80): Copies a special register into RX. -/
  | mget (b : BenchId) (f : FmtC)
  /-- TRAP (R102): Completes, including its loop-end decision, and then raises Trap to the next level up or to Master. -/
  | trap (b : BenchId) (f : FmtTrap)
  /-- RETX (R98): Checks the seal of the top frame and restores STATUS, the loop stack, XSP and PC. -/
  | retx (b : BenchId) (f : FmtRetx)
  /-- RESEAL (R103): Writes seal16(RA, XDEPTH) to RD. -/
  | reseal (b : BenchId) (f : FmtReseal)
  /-- EXCEPTION_ENTRY (R95): At an interrupt point or on a raise, writes the 128-byte frame with its seal and transfers to the handler slot. -/
  | exceptionEntry (b : BenchId) (why : EntryWhy)
  /-- COUNT_MATCH (R105): CYCLE reaches BEN_XCMP, and Count match becomes pending once. -/
  | countMatch (b : BenchId)
  /-- HALT (R86): A write of 1 to BEN_DBG_CTL.HALT halts the core at its next interrupt point. -/
  | halt (b : BenchId)
  /-- HALT_RELEASE (R86): A write of 0 to BEN_DBG_CTL.HALT resumes the halted core. -/
  | haltRelease (b : BenchId)
  /-- STEP (R86): A write of 1 to BEN_DBG_CTL.STEP while halted executes one instruction or one exception entry, and then halts again. -/
  | step (b : BenchId)
  /-- DEBUG_DATA_WRITE (R88): A write to BEN_DBG_DATA_LO or _HI while halted updates the register that BEN_DBG_SEL selects. -/
  | debugDataWrite (b : BenchId) (hi : Bool) (v : W32)
  /-- LATHE_DISPATCH (R70): A lathe or forge instruction completes by writing its entry, with its scalar values, into its queue. -/
  | latheDispatch (b : BenchId) (i : EngInstr)
  /-- PAIR_DISPATCH (R71): In normal mode, a lathe instruction and a forge instruction are dispatched together in one 3-A-cycle step. -/
  | pairDispatch (b : BenchId) (i j : EngInstr)
  /-- QUEUE_STALL_RELEASE (R73): A dispatch that stalled on a full queue proceeds when an entry frees. -/
  | queueStallRelease (b : BenchId)
  /-- SCALAR_RESULT_WRITE (R72): An engine writes a pending scalar register, such as the result of VSETL or VEXT, and releases the stalls on it. -/
  | scalarResultWrite (b : BenchId) (r : R5)
  /-- VSETL (R118): Sets the vector type and VL = min(AVL, VLMAX), and writes VL to rd. -/
  | vsetl (b : BenchId) (f : FmtVS)
  /-- VCSR (R122): Reads a lathe control register into rd and, when W = 1, writes ra into it. -/
  | vcsr (b : BenchId) (f : FmtVC)
  /-- VLD (R141): Unit-stride vector load. -/
  | vld (b : BenchId) (x : Moving FmtVM)
  /-- VST (R141): Unit-stride vector store. -/
  | vst (b : BenchId) (x : Moving FmtVM)
  /-- VLDS (R141): Strided vector load. -/
  | vlds (b : BenchId) (x : Moving FmtVM)
  /-- VSTS (R141): Strided vector store. -/
  | vsts (b : BenchId) (x : Moving FmtVM)
  /-- VGATH (R141): Indexed vector load. -/
  | vgath (b : BenchId) (x : Moving FmtVM)
  /-- VSCAT (R141): Indexed vector store. -/
  | vscat (b : BenchId) (x : Moving FmtVM)
  /-- VGATH_FF (R150): Gather that shortens VL at the first faulting element after the first. -/
  | vgathFf (b : BenchId) (x : Moving FmtVM)
  /-- VADD (R128): Integer vector add. -/
  | vadd (b : BenchId) (f : FmtVV) (p : Pace)
  /-- VSUB (R128): Integer vector subtract. -/
  | vsub (b : BenchId) (f : FmtVV) (p : Pace)
  /-- VRSUB (R128): Integer vector reverse subtract, b - a. -/
  | vrsub (b : BenchId) (f : FmtVV) (p : Pace)
  /-- VAND (R128): Vector bitwise AND. -/
  | vand (b : BenchId) (f : FmtVV) (p : Pace)
  /-- VOR (R128): Vector bitwise OR. -/
  | vor (b : BenchId) (f : FmtVV) (p : Pace)
  /-- VXOR (R128): Vector bitwise XOR. -/
  | vxor (b : BenchId) (f : FmtVV) (p : Pace)
  /-- VSLL (R128): Vector shift left by b mod SEW. -/
  | vsll (b : BenchId) (f : FmtVV) (p : Pace)
  /-- VSRL (R128): Vector logical shift right. -/
  | vsrl (b : BenchId) (f : FmtVV) (p : Pace)
  /-- VSRA (R128): Vector arithmetic shift right. -/
  | vsra (b : BenchId) (f : FmtVV) (p : Pace)
  /-- VMIN (R128): Vector signed minimum. -/
  | vmin (b : BenchId) (f : FmtVV) (p : Pace)
  /-- VMAX (R128): Vector signed maximum. -/
  | vmax (b : BenchId) (f : FmtVV) (p : Pace)
  /-- VMINU (R128): Vector unsigned minimum. -/
  | vminu (b : BenchId) (f : FmtVV) (p : Pace)
  /-- VMAXU (R128): Vector unsigned maximum. -/
  | vmaxu (b : BenchId) (f : FmtVV) (p : Pace)
  /-- VMUL (R128): Vector multiply, low SEW bits. -/
  | vmul (b : BenchId) (f : FmtVV) (p : Pace)
  /-- VMULH (R128): Vector multiply, high SEW bits of the signed product. -/
  | vmulh (b : BenchId) (f : FmtVV) (p : Pace)
  /-- VMULHU (R128): Vector multiply, high SEW bits of the unsigned product. -/
  | vmulhu (b : BenchId) (f : FmtVV) (p : Pace)
  /-- VADDSAT (R133): Signed saturating add. -/
  | vaddsat (b : BenchId) (f : FmtVV) (p : Pace)
  /-- VADDSATU (R133): Unsigned saturating add. -/
  | vaddsatu (b : BenchId) (f : FmtVV) (p : Pace)
  /-- VSUBSAT (R133): Signed saturating subtract. -/
  | vsubsat (b : BenchId) (f : FmtVV) (p : Pace)
  /-- VSUBSATU (R133): Unsigned saturating subtract. -/
  | vsubsatu (b : BenchId) (f : FmtVV) (p : Pace)
  /-- VAVG (R133): Signed average with FXRND rounding. -/
  | vavg (b : BenchId) (f : FmtVV) (p : Pace)
  /-- VAVGU (R133): Unsigned average with FXRND rounding. -/
  | vavgu (b : BenchId) (f : FmtVV) (p : Pace)
  /-- VFRMUL (R133): Fractional multiply with rounding and saturation. -/
  | vfrmul (b : BenchId) (f : FmtVV) (p : Pace)
  /-- VSHRR (R133): Unsigned rounding shift right. -/
  | vshrr (b : BenchId) (f : FmtVV) (p : Pace)
  /-- VSHRRA (R133): Signed rounding shift right. -/
  | vshrra (b : BenchId) (f : FmtVV) (p : Pace)
  /-- VCLIPNU (R133): Narrowing unsigned clip. -/
  | vclipnu (b : BenchId) (f : FmtVV) (p : Pace)
  /-- VCLIPN (R133): Narrowing signed clip. -/
  | vclipn (b : BenchId) (f : FmtVV) (p : Pace)
  /-- VFADD (R134): Floating-point vector add under FRM. -/
  | vfadd (b : BenchId) (f : FmtVV) (p : Pace)
  /-- VFSUB (R134): Floating-point vector subtract. -/
  | vfsub (b : BenchId) (f : FmtVV) (p : Pace)
  /-- VFMUL (R134): Floating-point vector multiply. -/
  | vfmul (b : BenchId) (f : FmtVV) (p : Pace)
  /-- VFDIV (R134): Floating-point vector divide. -/
  | vfdiv (b : BenchId) (f : FmtVV) (p : Pace)
  /-- VFSQRT (R134): Floating-point vector square root. -/
  | vfsqrt (b : BenchId) (f : FmtVV) (p : Pace)
  /-- VFMINNUM (R138): IEEE minimumNumber. -/
  | vfminnum (b : BenchId) (f : FmtVV) (p : Pace)
  /-- VFMAXNUM (R138): IEEE maximumNumber. -/
  | vfmaxnum (b : BenchId) (f : FmtVV) (p : Pace)
  /-- VFMIN (R138): IEEE minimum. -/
  | vfmin (b : BenchId) (f : FmtVV) (p : Pace)
  /-- VFMAX (R138): IEEE maximum. -/
  | vfmax (b : BenchId) (f : FmtVV) (p : Pace)
  /-- VFABS (R136): Clears the sign bit, raising no flag. -/
  | vfabs (b : BenchId) (f : FmtVV) (p : Pace)
  /-- VFNEG (R136): Inverts the sign bit, raising no flag. -/
  | vfneg (b : BenchId) (f : FmtVV) (p : Pace)
  /-- VFMA (R135): Fused a x b + d. -/
  | vfma (b : BenchId) (f : FmtVV) (p : Pace)
  /-- VFMS (R135): Fused a x b - d. -/
  | vfms (b : BenchId) (f : FmtVV) (p : Pace)
  /-- VFNMA (R135): Fused -(a x b) + d. -/
  | vfnma (b : BenchId) (f : FmtVV) (p : Pace)
  /-- VFNMS (R135): Fused -(a x b) - d. -/
  | vfnms (b : BenchId) (f : FmtVV) (p : Pace)
  /-- VCEQ (R128): Integer compare for equality into a mask. -/
  | vceq (b : BenchId) (f : FmtVV) (p : Pace)
  /-- VCNE (R128): Integer compare for inequality into a mask. -/
  | vcne (b : BenchId) (f : FmtVV) (p : Pace)
  /-- VCLT (R128): Signed less-than compare into a mask. -/
  | vclt (b : BenchId) (f : FmtVV) (p : Pace)
  /-- VCGE (R128): Signed greater-or-equal compare into a mask. -/
  | vcge (b : BenchId) (f : FmtVV) (p : Pace)
  /-- VCLTU (R128): Unsigned less-than compare into a mask. -/
  | vcltu (b : BenchId) (f : FmtVV) (p : Pace)
  /-- VCGEU (R128): Unsigned greater-or-equal compare into a mask. -/
  | vcgeu (b : BenchId) (f : FmtVV) (p : Pace)
  /-- VFCEQ (R138): Quiet floating-point equality compare. -/
  | vfceq (b : BenchId) (f : FmtVV) (p : Pace)
  /-- VFCLT (R138): Signalling floating-point less-than compare. -/
  | vfclt (b : BenchId) (f : FmtVV) (p : Pace)
  /-- VFCLE (R138): Signalling floating-point less-or-equal compare. -/
  | vfcle (b : BenchId) (f : FmtVV) (p : Pace)
  /-- VFCUN (R138): Quiet unordered compare. -/
  | vfcun (b : BenchId) (f : FmtVV) (p : Pace)
  /-- VCVT (R139): Converts each active element from SFMT to DFMT. -/
  | vcvt (b : BenchId) (f : FmtVX) (p : Pace)
  /-- VRSUM (R140): Integer sum reduction. -/
  | vrsum (b : BenchId) (f : FmtVV) (p : Pace)
  /-- VRMAX (R140): Signed maximum reduction. -/
  | vrmax (b : BenchId) (f : FmtVV) (p : Pace)
  /-- VRMIN (R140): Signed minimum reduction. -/
  | vrmin (b : BenchId) (f : FmtVV) (p : Pace)
  /-- VRMAXU (R140): Unsigned maximum reduction. -/
  | vrmaxu (b : BenchId) (f : FmtVV) (p : Pace)
  /-- VRMINU (R140): Unsigned minimum reduction. -/
  | vrminu (b : BenchId) (f : FmtVV) (p : Pace)
  /-- VFRSUM (R140): Floating-point sum in a fixed tree. -/
  | vfrsum (b : BenchId) (f : FmtVV) (p : Pace)
  /-- VFRMAX (R140): Floating-point maximum reduction. -/
  | vfrmax (b : BenchId) (f : FmtVV) (p : Pace)
  /-- VFRMIN (R140): Floating-point minimum reduction. -/
  | vfrmin (b : BenchId) (f : FmtVV) (p : Pace)
  /-- MAND (R130): Mask AND. -/
  | mand (b : BenchId) (f : FmtVV) (p : Pace)
  /-- MOR (R130): Mask OR. -/
  | mor (b : BenchId) (f : FmtVV) (p : Pace)
  /-- MXOR (R130): Mask XOR. -/
  | mxor (b : BenchId) (f : FmtVV) (p : Pace)
  /-- MANDN (R130): Mask AND-NOT. -/
  | mandn (b : BenchId) (f : FmtVV) (p : Pace)
  /-- MNOT (R130): Mask NOT. -/
  | mnot (b : BenchId) (f : FmtVV) (p : Pace)
  /-- MSET_MASK (R130): Lathe MSET: writes 1s to mask bits 0 to VL - 1. -/
  | msetMask (b : BenchId) (f : FmtVV) (p : Pace)
  /-- MCLR (R130): Writes 0s to mask bits 0 to VL - 1. -/
  | mclr (b : BenchId) (f : FmtVV) (p : Pace)
  /-- VMPOP (R130): Counts the set mask bits into a scalar. -/
  | vmpop (b : BenchId) (f : FmtVV) (p : Pace)
  /-- VMFIRST (R130): Writes the index of the lowest set mask bit into a scalar. -/
  | vmfirst (b : BenchId) (f : FmtVV) (p : Pace)
  /-- VMV (R129): Writes the second operand into each active element. -/
  | vmv (b : BenchId) (f : FmtVV) (p : Pace)
  /-- VMERGE (R129): Selects between a and b by mask. -/
  | vmerge (b : BenchId) (f : FmtVV) (p : Pace)
  /-- VEXT (R129): Extracts element s[VB] into a scalar. -/
  | vext (b : BenchId) (f : FmtVV) (p : Pace)
  /-- VINS (R129): Inserts a scalar at element s[VB]. -/
  | vins (b : BenchId) (f : FmtVV) (p : Pace)
  /-- VID (R129): Writes i into each active element i. -/
  | vid (b : BenchId) (f : FmtVV) (p : Pace)
  /-- VTLD (R131): Copies tile elements into a vector group. -/
  | vtld (b : BenchId) (f : FmtVT) (p : Pace)
  /-- VTST (R131): Copies a vector group into a tile. -/
  | vtst (b : BenchId) (f : FmtVT) (p : Pace)
  /-- FOP (R153): Accumulates K steps of outer products into a tile through the array, promoting at each heat boundary. -/
  | fop (b : BenchId) (f : FmtF) (stop : Option Nat) (mism : List Mismatch)
  /-- FGAUGE (R183): Computes a distance, extremum or count gauge over K steps into a tile. -/
  | fgauge (b : BenchId) (f : FmtG) (stop : Option Nat) (mism : List Mismatch)
  /-- PLOAD (R160): Loads plate rows from the bench store under a plate descriptor. -/
  | pload (b : BenchId) (x : Moving FmtPL)
  /-- TSYNC (R181): Waits at the head of the forge queue until the named tiles and plates are free, then writes 0 to RD. -/
  | tsync (b : BenchId) (f : FmtTS)
  /-- SEED (R205): Sets every forge riddle lane from s[RA]. -/
  | seed (b : BenchId) (f : FmtSeed)
  /-- SCOREBOARD_RELEASE (R178): An operation stalled on a conflict begins its access when the earlier conflicting access ends. -/
  | scoreboardRelease (b : BenchId) (forge : Bool)
  /-- DRAIN (R218): The ladle reads a tile, fuses, rounds and writes it to v-registers, the bench store or a carter. -/
  | drain (b : BenchId) (f : FmtD) (stop : Option Nat) (mism : List Mismatch)
  /-- DRAIN_C (R225): Drains as DRAIN does, and then clears the drained tiles. -/
  | drainC (b : BenchId) (f : FmtD) (stop : Option Nat) (mism : List Mismatch)
  /-- LADLE_ROW_HANDOFF (R223): When carter 2b + 1 can accept it, the ladle converts a DK 2 row and hands it to the carter. -/
  | ladleRowHandoff (b : BenchId)
  /-- DRAIN_ACK_COMPLETE (R329): A DK 2 drain completes when every row is acknowledged, or is held and raises when a row fails. -/
  | drainAckComplete (b : BenchId) (fail : Option (Nat × ExtStatus))
  /-- SPARE_SWITCH_REQUEST (R186): A write of 1 to FRG_SPARE_CTL.GO requests a spare-row switch or release, and sets PEND. -/
  | spareSwitchRequest (b : BenchId) (sp rel : Bool) (row : BitVec 6)
  /-- SPARE_SWITCH_APPLY (R186): At a quiescent point, the forge rewrites the row map, skew table and LAT, and clears PEND. -/
  | spareSwitchApply (b : BenchId)
  /-- RESIDUE_INJECT (R234): A write of 1 to CRU_RCHK_CFG.INJ forces one residue mismatch in the next heat. -/
  | residueInject (b : BenchId)
  /-- ROW_COUNT_CLEAR (R236): A write of 1 to CRU_ROWERR_CNT.CLR clears the selected row's count. -/
  | rowCountClear (b : BenchId)
  /-- DROSS_STEP_DOWN (R459): After a governor grant, one group's dross duty falls by one eighth. -/
  | drossStepDown
  /-- FORGE_RESTART_GRANT (R458): The first array operation after 1,024 idle A-cycles proceeds once the governor grants IFORGE. -/
  | forgeRestartGrant (b : BenchId)
  /-- FENCE_B (R252): Fence at Bench scope. -/
  | fenceB (b : BenchId) (f : FmtFence)
  /-- FENCE_S (R252): Fence at Shop scope. -/
  | fenceS (b : BenchId) (f : FmtFence)
  /-- FENCE_H (R252): Fence at Hall scope. -/
  | fenceH (b : BenchId) (f : FmtFence)
  /-- FENCE_D (R252): Fence at Device scope. -/
  | fenceD (b : BenchId) (f : FmtFence)
  /-- FENCE_P (R252): Fence at Peer domain scope, waiting for remote acknowledgements. -/
  | fenceP (b : BenchId) (f : FmtFence)
  /-- FENCE_TIMEOUT (R254): A fence waits LIM x 1,024 F-cycles without completing and raises Bus error TIMEOUT. -/
  | fenceTimeout (b : BenchId)
  /-- RESPONSE_TIMEOUT (R255): An LDG or atomic response is late past the limit, and Bus error TIMEOUT is raised. -/
  | responseTimeout (b : BenchId)
  /-- CINV (R261): Invalidates scalar data cache and shop cache lines of a range or of the whole cache. -/
  | cinv (b : BenchId) (f : FmtCinv)
  /-- ASWAP (R263): Atomic swap. -/
  | aswap (b : BenchId) (f : FmtAtom)
  /-- AADD (R263): Atomic add. -/
  | aadd (b : BenchId) (f : FmtAtom)
  /-- AAND (R263): Atomic AND. -/
  | aand (b : BenchId) (f : FmtAtom)
  /-- AOR (R263): Atomic OR. -/
  | aor (b : BenchId) (f : FmtAtom)
  /-- AXOR (R263): Atomic XOR. -/
  | axor (b : BenchId) (f : FmtAtom)
  /-- AMIN (R263): Atomic signed minimum. -/
  | amin (b : BenchId) (f : FmtAtom)
  /-- AMAX (R263): Atomic signed maximum. -/
  | amax (b : BenchId) (f : FmtAtom)
  /-- AMINU (R263): Atomic unsigned minimum. -/
  | aminu (b : BenchId) (f : FmtAtom)
  /-- AMAXU (R263): Atomic unsigned maximum. -/
  | amaxu (b : BenchId) (f : FmtAtom)
  /-- ACAS (R263): Atomic compare-and-swap against RD. -/
  | acas (b : BenchId) (f : FmtAtom)
  /-- AFADD (R263): Atomic floating-point add. -/
  | afadd (b : BenchId) (f : FmtAtom)
  /-- ALD (R263): Atomic load. -/
  | ald (b : BenchId) (f : FmtAtom)
  /-- AST (R263): Atomic store. -/
  | ast (b : BenchId) (f : FmtAtom)
  /-- TRANSLATION_WALK (R281): A translation miss walks the hallmark context and the three table levels, or faults. -/
  | translationWalk (e : Engine) (hmk : BitVec 12) (dva : W64) (acc : Acc)
  /-- QUOTA_WAIT_RETRY (R293): A miss that waited for a free entry or quota makes its walk again when an entry frees. -/
  | quotaWaitRetry
  /-- FAULT_RECORD_WRITE (R294): A fault record is written to the function's fault ring when room allows, and MSI-X is raised. -/
  | faultRecordWrite (f : FnId)
  /-- FAULT_RESOLVED (R295): The doorbell frees the entry and makes every waiting engine walk again. -/
  | faultResolved (f : FnId) (v : W32)
  /-- FAULT_ABANDONED (R296): The doorbell frees the entry and delivers Translation fault or an error completion to every waiter. -/
  | faultAbandoned (f : FnId) (v : W32)
  /-- INVALIDATE (R300): A command-ring invalidation advances the epoch, purges caches and restarts walks that are in progress. -/
  | invalidate (r : RingId) (header w1 w2 w3 : W64)
  /-- INVALIDATION_COMPLETE (R301): The invalidation's completion record is written once no older request in its range is in flight. -/
  | invalidationComplete (epoch : W32)
  /-- LOT_ENTRY_WRITE (R305): A write to HMK_LOT_DATA posts a lot entry to every checking controller and shop cache. -/
  | lotEntryWrite (v : W32)
  /-- MEMORY_REQUEST (R398): A memory controller serves a 64- or 128-byte access after checking it against the lot table. -/
  | memoryRequest (q : CtrlReq)
  /-- SCRUB_READ (R412): Every SCRUB x 4,096 F-cycles, a channel tests one line under both classes and corrects or records it. -/
  | scrubRead (c : Channel) (arisen : LineFaults)
  /-- REFRESH (R413): A channel issues a refresh command on its own schedule. -/
  | refresh (c : Channel)
  /-- DEVICE_TEMP_READOUT (R415): Every 1 ms, the yard reads GDDR case temperatures and may change a group's band. -/
  | deviceTempReadout (g : Fin 8) (hottest : Int)
  /-- TEMPER_SET_LOAD (R416): In its next refresh slot, a channel loads the temper set of the new band. -/
  | temperSetLoad (g : Fin 8) (c : Fin 32)
  /-- DRIFT_CHECK (R418): Once per refresh interval, the eye-drift monitor compares eye centres and may schedule a retrain. -/
  | driftCheck (g : Fin 8) (c : Fin 32) (diff : Nat)
  /-- PERIODIC_RETRAIN (R418): A retrain is scheduled every PERIOD x 2^20 F-cycles. -/
  | periodicRetrain (g : Fin 8) (c : Fin 32)
  /-- RETRAIN_SLICE (R419): One retrain slice of at most 400 ns runs on a channel while its requests wait. -/
  | retrainSlice (c : Channel) (r : SliceResult)
  /-- INGOT_ROW_REPAIR (R420): An ingot row is copied, remapped to a spare row and written back within one slice. -/
  | ingotRowRepair (s : ShopId) (c : Fin 8) (bank : BitVec 4) (row : BitVec 24)
  /-- RELIEF_GO (R421): A write of 1 to YRD_RELIEF_CTL.GO starts the relief of a yard channel, or it is refused. -/
  | reliefGo (g : Fin 8) (c : Fin 32) (rate : Byte)
  /-- RELIEF_LINE_COPY (R422): Every RATE F-cycles, one spread line is copied to the reserve and WM advances. -/
  | reliefLineCopy
  /-- MARGIN_POINT (R424): A write of 1 to YRD_MARGIN_CTL.GO schedules one margin measurement. -/
  | marginPoint (v : W32)
  /-- MARGIN_RESULT (R424): The margin slice completes, writes YRD_MARGIN_RES and clears BUSY. -/
  | marginResult (errs : W32)
  /-- SELF_REFRESH_ENTRY (R414): At quench level 4, the stack enters self-refresh after serving its queued requests. -/
  | selfRefreshEntry (s : ShopId)
  /-- GROUP_BRINGUP (R400): A yard group or ingot stack is trained, soaked, filled and repaired, and then brought into service. -/
  | groupBringup (u : MemUnit) (failed : List (Fin 32)) (trained : BitVec 4) (band : BitVec 2)
  /-- CARTER_DOORBELL_WAKE (R313): The doorbell bell changes or a descriptor completes, and the carter rereads its control block and starts slot HEAD. -/
  | carterDoorbellWake (c : CarterId)
  /-- MOVE (R315): A carter descriptor moves strided elements from source to destination. -/
  | move (c : CarterId) (loc : Bool)
  /-- GATHER (R316): A carter descriptor gathers through an index list. -/
  | gather (c : CarterId) (loc : Bool)
  /-- SCATTER (R316): A carter descriptor scatters through an index list. -/
  | scatter (c : CarterId) (loc : Bool)
  /-- FILL (R316): A carter descriptor writes a fill value. -/
  | fill (c : CarterId) (loc : Bool)
  /-- CARTER_NOP (R316): A carter descriptor completes at once and may ring CBELL. -/
  | carterNop (c : CarterId) (loc : Bool)
  /-- MARK (R336): HOPCTL operation 0: MARK = RD. -/
  | mark (c : CarterId) (loc : Bool)
  /-- REWIND (R336): HOPCTL operation 1: RD = MARK. -/
  | rewind (c : CarterId) (loc : Bool)
  /-- RELEASE (R336): HOPCTL operation 2: REL = MARK, once the takes have read. -/
  | release (c : CarterId) (loc : Bool)
  /-- MARK_AND_RELEASE (R336): HOPCTL operation 3: MARK = RD, then REL = MARK. -/
  | markAndRelease (c : CarterId) (loc : Bool)
  /-- DESCRIPTOR_COMPLETE (R324): When every request is answered, the carter writes HEAD and rings CBELL. -/
  | descriptorComplete (c : CarterId) (loc : Bool)
  /-- DESCRIPTOR_FAIL (R324): After its issued requests end, a failed descriptor writes ERR, CODE and ADDR, rings EBELL and stops the ring. -/
  | descriptorFail (c : CarterId) (loc : Bool)
  /-- CARTER_REQUEST_TIMEOUT (R326): A carter request unanswered after LIM x 1,024 F-cycles fails with TIMEOUT. -/
  | carterRequestTimeout (c : CarterId) (loc : Bool)
  /-- LAUNCH_COPY_PART (R318): Once a bench's launch block is written, one part of a launch copy runs on a shop carter. -/
  | launchCopyPart (n : SlotId)
  /-- CARTER_DISABLE (R341): A write of 0 to CRT_CTL.EN takes the carter out of service, draining in flight. -/
  | carterDisable (c : CarterId)
  /-- LOCAL_RING_DISABLE (R529): A write of 0 to CRT_RING_CFG.EN stops only the local ring at a unit boundary. -/
  | localRingDisable (c : CarterId)
  /-- HOPPER_PUT_UNIT (R332): A put unit is appended to the open packet when room allows. -/
  | hopperPutUnit (c : CarterId) (loc : Bool)
  /-- IDLE_TIMEOUT_CLOSE (R338): With VQC = 1, a packet that is idle for IDLE x 256 F-cycles closes. -/
  | idleTimeoutClose (h : HopperId)
  /-- HOPPER_TAKE (R333): A take waits until enough units are visible and then claims them by advancing RD. -/
  | hopperTake (c : CarterId) (loc : Bool)
  /-- AUTO_RELEASE (R335): With AREL = 1, a take that has read its units advances REL and MARK. -/
  | autoRelease (h : HopperId)
  /-- HOPPER_NOTICE (R337): After a closed packet's units are accepted, the hopper rings NBELL. -/
  | hopperNotice (h : HopperId)
  /-- HOPPER_DISABLE (R341): A write of 0 to HOP_CFG.EN fails new operations, waits for those in progress and discards the contents. -/
  | hopperDisable (h : HopperId)
  /-- RING_ADD (R347): Releases at SCOPE and then adds v to a bell. -/
  | ringAdd (b : BenchId) (f : FmtRing)
  /-- RING_SET (R347): Releases at SCOPE and then sets a bell to v. -/
  | ringSet (b : BenchId) (f : FmtRing)
  /-- RING_ABORT (R347): On the bench's completion bell, ends the kernel with ABORTED and code v. -/
  | ringAbort (b : BenchId) (f : FmtRing)
  /-- WAIT (R348): Stalls until the bell meets the target, as an acquire. -/
  | wait (b : BenchId) (f : FmtWait)
  /-- WAIT_ASYNC (R348): Arms the bench's single bell watch and completes at once. -/
  | waitAsync (b : BenchId) (f : FmtWait)
  /-- PEAL (R349): Barrier: releases, fetch-adds the bell, writes the target to RD and waits. -/
  | peal (b : BenchId) (f : FmtPeal)
  /-- BELL_COUNT_WAKE (R352): A bell count meets a waiter's target, and the waiting WAIT, PEAL or BWAIT completes. -/
  | bellCountWake (w : BellWaiter)
  /-- BELL_WAKE (R348): A watched count meets its target, the watch disarms, and Bell wake becomes pending. -/
  | bellWake (b : BenchId)
  /-- BELL_COUNT_SET (R342): A write to BEL_CNT sets the selected bell under hallmark 0. -/
  | bellCountSet (v : W32)
  /-- CHIME (R350): Releases at Peer scope, sends an add to a peer's bell and waits for the acknowledgement. -/
  | chime (b : BenchId) (f : FmtChime)
  /-- CHIME_RECEIVE (R439): The receiving belfry applies the chime in sequence order, discards duplicates, and acknowledges. -/
  | chimeReceive (peer : PeerId) (seq : W32) (resync : Bool) (hmk : BitVec 12) (bell : BitVec 16) (v : W32)
  /-- CHIME_ACK_RECEIVE (R350): The acknowledgement arrives and the waiting CHIME completes, or raises on a refusal. -/
  | chimeAckReceive (peer : PeerId) (seq : W32) (refused : Bool)
  /-- CHIME_ACK_TIMEOUT (R350): The acknowledgement wait passes the fence timeout, and CHIME raises Bus error TIMEOUT. -/
  | chimeAckTimeout (b : BenchId)
  /-- CHIME_RESEND (R439): Every TMO x 1,024 F-cycles, unacknowledged chimes are resent in sequence order. -/
  | chimeResend (peer : PeerId)
  /-- RING_TAIL_DOORBELL (R380): A write of a ring's tail doorbell records a valid tail, or writes BAD_DOORBELL. -/
  | ringTailDoorbell (f : FnId) (r : RingId) (v : W32)
  /-- CQ_HEAD_DOORBELL (R387): A write of the completion-queue head frees record space. -/
  | cqHeadDoorbell (f : FnId) (r : RingId) (v : W32)
  /-- SHIFT_DOORBELL (R372): A PF write of the SHIFT doorbell makes a shift boundary in MODE 2. -/
  | shiftDoorbell (f : FnId)
  /-- FETCH_TURN (R353): The counting-house fetches up to 8 descriptors of one ring, binds a slot, and passes the descriptors on in order. -/
  | fetchTurn (host : Cells)
  /-- NOP (R384): A command-ring NOP completes when it begins. -/
  | nop (r : RingId)
  /-- LAUNCH (R356): A launch descriptor is checked and waits for benches, engines and prerequisites. -/
  | launch (r : RingId)
  /-- COPY (R355): A copy descriptor runs on a shop carter's foreman feed. -/
  | copy (r : RingId)
  /-- BWAIT (R355): A stream entry waits until a bell meets its target. -/
  | bwait (r : RingId)
  /-- BRING (R355): A stream entry rings a bell, or sends a chime, after every earlier entry has completed. -/
  | bring (r : RingId)
  /-- BENCH_ASSIGN (R358): Once enough of its MASK is free or held, the foreman assigns NBEN benches to a launch. -/
  | benchAssign (n : SlotId)
  /-- BENCH_RELEASE (R359): The foreman clears the bench, loads firmware, writes the launch block and rings, and releases when prerequisites complete. -/
  | benchRelease (n : SlotId)
  /-- GROUP_WAKE (R32): After the governor's grant, a group of up to eight benches is woken and fetches ENTRY. -/
  | groupWake (n : SlotId)
  /-- KERNEL_END (R360): CBELL meets CTARGET, and the benches stop, drain their queues and become free. -/
  | kernelEnd (n : SlotId)
  /-- KLIM_LAPSE (R361): The kernel time limit lapses, and the kernel ends at once with TIMEOUT. -/
  | klimLapse (n : SlotId)
  /-- COMPLETION_RECORD_WRITE (R387): A completion record is written when queue room allows, and an MSI-X message may follow. -/
  | completionRecordWrite (r : RingId)
  /-- SLOT_PREEMPT (R367): A write of 1 to FMN_SLOTn_CTL.PREEMPT preempts the slot's kernel. -/
  | slotPreempt (n : SlotId)
  /-- SLOT_ABORT (R361): A write of 1 to FMN_SLOTn_CTL.ABORT ends the kernel with HOST_ABORT. -/
  | slotAbort (n : SlotId)
  /-- SLOT_RESUME (R530): A write of 1 to FMN_SLOTn_CTL.RESUME ends the halt of the slot and its ring. -/
  | slotResume (n : SlotId)
  /-- SLOT_NOTICE (R371): A write of 1 to FMN_SLOTn_CTL.NOTICE writes the notice word and makes Foreman notice pending. -/
  | slotNotice (n : SlotId)
  /-- AUTO_PREEMPT (R367): With AUTO = 1, a waiting launch of higher PRI preempts the lowest-priority holder. -/
  | autoPreempt
  /-- BENCH_HANDOVER (R368): The Master handler hands the bench over, and the lathe, forge, ladle and rings stop. -/
  | benchHandover (b : BenchId)
  /-- STATE_IMAGE_WRITE (R369): The foreman writes the bench's state image, and the bench becomes free. -/
  | stateImageWrite (b : BenchId)
  /-- STATE_IMAGE_RESTORE (R370): Once its benches are free, a preempted kernel's images are restored and its benches released. -/
  | stateImageRestore (n : SlotId)
  /-- SHIFT_BOUNDARY (R372): The local shift counter expires, the shift number advances, and every block latches its counters. -/
  | shiftBoundary
  /-- RING_RESUME (R530): A write of 1 to CTH_RINGn_CFG.RESUME ends the stream's halt. -/
  | ringResume (r : RingId)
  /-- RING_DISABLE (R386): A write of 0 to CTH_RINGn_CFG.EN stops fetching and flushes unbegun entries. -/
  | ringDisable (x : RingStop)
  /-- BENCH_DISABLE (R505): A write of 0 to FMN_BENCHb_CTL.EN isolates the bench until it is free. -/
  | benchDisable (b : BenchId)
  /-- BENCH_RESET (R506): A write to FMN_BRESET.GO resets an off bench, draws a new XKEY and self-tests it, or is refused. -/
  | benchReset (b : BenchId)
  /-- BENCH_RESET_COMPLETE (R506): A bench reset finishes within 3 ms and sets DONE and PASS. -/
  | benchResetComplete (t : SelfTest)
  /-- SEIZURE_RESET (R507): The foreman isolates and resets a seized bench and re-enables it if it passes. -/
  | seizureReset (t : SelfTest)
  /-- ERROR_RECORD_WRITE (R389): An error record is written to the function's error ring when room allows. -/
  | errorRecordWrite (f : FnId)
  /-- LINK_TRAINING (R373): A PCI Express link trains and negotiates its generation and width. -/
  | linkTraining (k : LinkId) (gen : BitVec 3) (width : BitVec 5) (flit : Bool)
  /-- LINK_RECOVERY (R393): LTSSM Recovery, a speed or width change changes only link timing. -/
  | linkRecovery (k : LinkId) (gen : BitVec 3) (width : BitVec 5)
  /-- LINK_DOWN (R394): A link enters DL_Down, and its traffic waits in the port. -/
  | linkDown (k : LinkId)
  /-- LINK_UP (R394): A link returns to DL_Up, and its waiting traffic leaves in order. -/
  | linkUp (k : LinkId)
  /-- HOLD_TIMEOUT (R394): Traffic that waits past HOLD ends with TIMEOUT or is discarded. -/
  | holdTimeout (k : LinkId)
  /-- HOT_RESET (R395): A Hot Reset, Link Disable or long DL_Down resets the link's functions under KEEP. -/
  | hotReset (k : LinkId)
  /-- PER_LINK_RESET (R395): PERST1_N to PERST3_N asserted resets a link k ≥ 1. -/
  | perLinkReset (k : LinkId)
  /-- FUNCTION_LEVEL_RESET (R396): FLR ends the function's kernels, flushes its entries, abandons its faults and disables its rings. -/
  | functionLevelReset (f : FnId)
  /-- BAR4_READ (R381): A host read through an aperture window reaches DPA under the window's hallmark. -/
  | bar4Read (k : LinkId) (off len : Nat)
  /-- BAR4_WRITE (R381): A host write through an aperture window is performed, discarded or recorded. -/
  | bar4Write (k : LinkId) (off : Nat) (data : List Byte) (poisoned : Bool)
  /-- BAR4_ATOMICOP (R381): An AtomicOp request to BAR4 is answered with Unsupported Request. -/
  | bar4Atomicop (k : LinkId) (off : Nat)
  /-- LGO (R375): A write of 1 to PEX_FMAP.LGO lets links 1-3 train. -/
  | lgo
  /-- MSIX_SEND (R391): After its record has left the port, a vector's message is sent, or it is held pending. -/
  | msixSend (f : FnId) (vec : BitVec 11)
  /-- MSIX_UNMASK (R391): Unmasking a pending vector sends its message. -/
  | msixUnmask (f : FnId) (vec : BitVec 11)
  /-- HOST_COMPLETION (R392): A completion from the host maps to data, LINK, POISON or TIMEOUT for the requester. -/
  | hostCompletion (tag : Nat) (st : ExtStatus) (host : Cells)
  /-- FUNCTION_DISABLE (R479): A write of 0 to PEX_FNf_CTL.EN drains the function. -/
  | functionDisable (f : FnId)
  /-- FLIT_RECEIVE (R428): A port receives a flit, accepts or discards it, and may signal NAK. -/
  | flitReceive (p : PortId) (x : Flit)
  /-- REPLAY_TIMEOUT (R428): After 1,024 flit times without an acknowledgement, the sender replays. -/
  | replayTimeout (p : PortId)
  /-- LANE_DEGRADE (R431): A failed lane drops its pair, and the port retrains on fewer lanes, or goes DOWN. -/
  | laneDegrade (p : PortId) (x : LaneLoss)
  /-- PORT_LINK_UP (R432): At link-up, the ends exchange domain, peer id and port, and a foreign domain is FENCED. -/
  | portLinkUp (p : PortId) (dom : BitVec 16) (peer : PeerId) (port : BitVec 4)
  /-- PORT_DISABLE (R433): A write of 0 to DRY_PORTp_CFG.EN drains the port and takes it DOWN. -/
  | portDisable (p : PortId)
  /-- PACKET_FORWARD (R434): A transit device sends a packet out of the port that the next PATH nibble names. -/
  | packetForward (k : Packet)
  /-- PATH_FAILOVER (R437): A DOWN hop-0 port switches a peer to its alternate path, or a returning port switches it back. -/
  | pathFailover (peer : PeerId)
  /-- DRY_RT_WRITE (R438): A write to DRY_RT_PRI or DRY_RT_ALT sets BUSY until it can apply. -/
  | dryRtWrite (alt : Bool) (v : W32)
  /-- ROUTE_CHANGE (R438): Once no request to the peer is in flight, the new path takes effect. -/
  | routeChange (peer : PeerId)
  /-- PEER_REQUEST (R285): A READ, WRITE or ATOMIC from a peer is lot-checked and performed at its DPA. -/
  | peerRequest (src : PeerId) (tag : Nat) (q : MemReq)
  /-- PEER_RESPONSE (R429): A RESPONSE packet returns data or an outcome to the requester. -/
  | peerResponse (tag : Nat) (peer : PeerId) (st : ExtStatus) (data : Cells)
  /-- CREDIT (R430): A CREDIT packet returns buffer credit for a class and layer. -/
  | credit (p : PortId) (cls : Fin 5) (layer : Fin 4) (units : Nat)
  /-- ALLREDUCE (R441): Collective: every rank receives the full reduced vector. -/
  | allreduce (q : HallId)
  /-- REDUCESCATTER (R441): Collective: each rank receives its chunk of the reduction. -/
  | reducescatter (q : HallId)
  /-- ALLGATHER (R441): Collective: every rank receives every rank's chunk. -/
  | allgather (q : HallId)
  /-- BROADCAST (R441): Collective: the root's vector is copied to every rank. -/
  | broadcast (q : HallId)
  /-- REDUCE (R441): Collective: the reduction is written at the root only. -/
  | reduce (q : HallId)
  /-- ALLOY_HELLO (R443): A HELLO from PREV is checked, and a mismatch ends the collective with COLL_MISMATCH. -/
  | alloyHello (q : HallId) (h : Hello)
  /-- ALLOY_DATA (R442): A 256-byte block from PREV is folded in the fixed order and passed on or written. -/
  | alloyData (q : HallId) (chunk elem : Nat) (final : Bool) (data : List Byte)
  /-- COLL_TIMEOUT (R443): No packet from PREV for WAITLIM ends the collective and sends DISTRESS. -/
  | collTimeout (q : HallId)
  /-- DISTRESS (R444): A received DISTRESS ends the collective with that CID, is forwarded once, and the CID is held. -/
  | distress (q : HallId) (cid : BitVec 16) (origin : PeerId) (reason : BitVec 8) (fromPrev : Bool)
  /-- DISTRESS_HOLD_EXPIRY (R444): A held CID leaves the distress list after DHOLD. -/
  | distressHoldExpiry (cid : BitVec 16)
  /-- ALLOY_QUARTER_DISABLE (R341): A write of 0 to ALY_Qh_RING_CFG.EN drains the quarter. -/
  | alloyQuarterDisable (q : HallId)
  /-- SENSOR_SAMPLE (R451): Every 10 µs, Sheler samples the sensors and updates the filtered values. -/
  | sensorSample (samples : List (Nat × Int)) (power : Nat)
  /-- QUENCH_FALL (R452): After 10 ms of the leaving condition, the level drops by one. -/
  | quenchFall (s : ShopId)
  /-- LEVEL4_STOP (R453): Once granted, the shop's engines stop at boundaries and its A-clock stops. -/
  | level4Stop (s : ShopId)
  /-- DWELL_EXPIRED (R454): Level-4 time reaches DWELL, and Sheler writes a record and starts distress. -/
  | dwellExpired (s : ShopId)
  /-- THERMAL_TRIP (R456): Two samples at 115 degC or more stop the root PLL, assert THERMTRIP_N and record SHL_TRIP. -/
  | thermalTrip (sensor : Byte) (t1 t2 : Int)
  /-- POWER_CHECK (R457): Every 1 ms, the mean power moves the device power step up or down. -/
  | powerCheck (mean : Nat)
  /-- DIVISOR_CHANGE (R448): Once granted, a shop's A-clock divisor changes at an aligned root edge. -/
  | divisorChange (s : ShopId)
  /-- DROOP_STRETCH (R461): A droop detection stretches the next 16 A-cycles of the shop to the ÷8 period. -/
  | droopStretch (s : ShopId)
  /-- RULE_EVALUATION (R463): Every 10 µs, the rule table is tested, and rules fire or stop acting. -/
  | ruleEvaluation
  /-- NAP_ENTRY (R462): After NAPIDLE of idleness, the device enters Nap. -/
  | napEntry
  /-- DOZE_REQUEST (R462): A write of 2 to PWR_CTL.REQ enters Doze from Nap, or is refused. -/
  | dozeRequest
  /-- AWAKE_REQUEST (R462): A write of 1 to PWR_CTL.REQ leaves Doze. -/
  | awakeRequest
  /-- DOZE_WAKE (R462): A non-configuration PCI Express request leaves Doze within 2 ms. -/
  | dozeWake
  /-- REFCLK_LOSS (R517): REFCLK lost or off-frequency for 5 µs acts as a thermal trip. -/
  | refclkLoss
  /-- MLD_POUR (R472): A write of a mask applies the moulds of the named pour groups together. -/
  | mldPour (mask : W32)
  /-- POSTED_WRITE_LAND (R475): A posted slow-domain write lands and clears the block's BUSY. -/
  | postedWriteLand (blk : Nat)
  /-- POUR_FIELD_LAND (R476): A POUR's slow-domain field lands and MLD_STATUS.BUSY clears. -/
  | pourFieldLand (off : Nat)
  /-- PARITY_SCRUB (R477): Every 1 ms, a parity block checks every register. -/
  | parityScrub (blk : Nat) (bad : List (Nat × Bool))
  /-- PROT_MODE_WRITE (R477): A write to PROT.MODE switches parity or assay in the next C-cycle. -/
  | protModeWrite (blk : Nat) (bench : BenchId) (mode : Bool)
  /-- BLOCK_DRAIN_COMPLETE (R480): A draining block goes off, or comes back up when PEND_EN is set. -/
  | blockDrainComplete (u : DrainUnit)
  /-- REGISTER_WRITE (R11): A write to a register field with no behaviour of its own, applied by its type code. -/
  | registerWrite (path : RegPath) (off : Nat) (v : W32)
  /-- POWER_ON (R482): VDD_AON is applied and everything resets. -/
  | powerOn
  /-- POWER_OFF (R25): VDD_AON is lost, and the device holds no state. -/
  | powerOff
  /-- PERST_ASSERT (R482): PERST_N of link 0 asserted makes a device reset. -/
  | perstAssert
  /-- PERST_RELEASE (R483): Sheler runs its mask ROM, captures the PUF bits and presents the minimal endpoint. -/
  | perstRelease (straps : Straps)
  /-- RAIL_DEPARTURE (R513): A rail or REFCLK leaves its band, and no rule binds until the next device reset. -/
  | railDeparture
  /-- PUT_RECORD (R488): Mailbox command: fetch the part record. -/
  | putRecord (m : Mbox) (data : List Byte)
  /-- PUT_IMAGE (R502): Mailbox command: accept an image as current before READY, or stage it at READY. -/
  | putImage (m : Mbox) (kind : BitVec 4) (image : List Byte)
  /-- ACTIVATE (R502): Mailbox command: swap the staged image to current and extend its measurement. -/
  | activate (kind : BitVec 4)
  /-- GET_RECORD (R491): Mailbox command: return the current part record, signed afresh. -/
  | getRecord (m : Mbox)
  /-- GET_MEAS (R497): Mailbox command: write the four measurements and three SVNs. -/
  | getMeas (m : Mbox)
  /-- ATTEST (R501): Mailbox command: return the signed attestation response for a nonce. -/
  | attest (m : Mbox) (nonce : List Byte)
  /-- PUT_CONFIG (R499): Mailbox command: check and apply a configuration list, then pour every group. -/
  | putConfig (m : Mbox) (data : List Byte)
  /-- IDENTITY_KEY_DERIVED (R489): The identity key pair is derived from the corrected PUF bits, or enrolment runs. -/
  | identityKeyDerived
  /-- BENCH_SELF_TEST (R504): Each bench tests its memories, lanes and forge rows, builds the row map and excludes failures. -/
  | benchSelfTest (ts : List SelfTest)
  /-- READY (R487): Every BAR serves, the functions appear, and held records are written. -/
  | ready
  /-- RUNTIME_WATCHDOG (R503): An unserved runtime watchdog stops the runtime and sets RTFAIL. -/
  | runtimeWatchdog
  /-- REG_READ (R500): Sideband request: read a CLK, PWR, SHL, SEC or MLD register. -/
  | regRead (off : Nat)
  /-- REG_WRITE (R500): Sideband request: write a CLK, PWR, SHL, SEC or MLD register. -/
  | regWrite (off : Nat) (v : W32)
  /-- GET_STATE (R500): Sideband request: return SEC_STATE. -/
  | getState
  /-- SB_GET_MEAS (R500): Sideband form of GET_MEAS. -/
  | sbGetMeas
  /-- SB_ATTEST (R500): Sideband form of ATTEST. -/
  | sbAttest (nonce : List Byte)
  /-- ALERT_RESPONSE (R520): An SMBus Alert Response read collects Sheler's notices and deasserts ALERT_N. -/
  | alertResponse
  /-- BYPASS (R522): JTAG BYPASS instruction. -/
  | bypass
  /-- IDCODE (R522): JTAG IDCODE instruction; reads 0x1025_669B. -/
  | idcode
  /-- SAMPLE_PRELOAD (R522): JTAG SAMPLE/PRELOAD instruction. -/
  | samplePreload
  /-- EXTEST (R523): JTAG EXTEST; acts only while PERST_N is asserted. -/
  | extest
  /-- EXTEST_PULSE (R523): JTAG EXTEST_PULSE for AC-coupled lanes; acts only in reset. -/
  | extestPulse
  /-- EXTEST_TRAIN (R523): JTAG EXTEST_TRAIN for AC-coupled lanes; acts only in reset. -/
  | extestTrain
  /-- CLAMP (R523): JTAG CLAMP; acts only in reset. -/
  | clamp
  /-- HIGHZ (R523): JTAG HIGHZ; acts only in reset. -/
  | highz
  /-- ENABLE_WRITE (R480): A write of 1 to the enable of an off carter, hopper, command ring, dray port, alloy quarter, bench, function or local ring brings the block up, or sets PEND_EN while it drains. -/
  | enableWrite (u : DrainUnit)
  /-- CONFIGURATION_REQUEST (R377): A host configuration request writes a function's PCI Express configuration space, such as Bus Master Enable, VF Enable, AtomicOp Requester Enable or a Resizable BAR size. -/
  | configurationRequest (f : FnId) (w : ConfigWrite)
  /-- COMPLETION_TIMEOUT (R392): A request to host memory gets no completion within the Completion Timeout range of Device Control 2, and the requester receives TIMEOUT. -/
  | completionTimeout (tag : Nat)
  /-- ASSAY_VOTE (R477): In each C-cycle, a block in assay mode votes every triplicated field by majority, writes the voted value back, and increments PROT.ACNT when a copy was corrected. -/
  | assayVote (blk : Nat) (bench : BenchId) (flips : List Flip)
  deriving DecidableEq, Repr

end Sys2Proof
end

