-- ==== Sys2Proof/Decode.lean ====
section
/-! DEFINITION. The decoder of the table of steps, whose rows give no bits, so that no word spells a command; and the reading of a bench
instruction's word: OPC, the function code, and the fields of each format (02 R45 and the tables it names). -/

namespace Sys2Proof

/-- The command that a word spells by the table's bits. The table gives no row bits, so there is none. -/
def decodeTableWord (_nbits _w : Nat) : Option Instr := none

/-! ## Formats (02 table 2.4; 03 table 3.3; 04 table 4.3; 05 table 5.2; 06 table 6.8; 07 table 7.1; 08 tables 8.2, 8.4, 8.5; 11 table 11.1) -/

/-- The fields of FmtR in a word. -/
def FmtR.ofWord (w : W36) : FmtR :=
  { cond := w.extractLsb' 32 4, rd := w.extractLsb' 19 5, ra := w.extractLsb' 14 5, rb := w.extractLsb' 9 5, sf := w.extractLsb' 8 1 }

/-- The fields of FmtI in a word. -/
def FmtI.ofWord (w : W36) : FmtI :=
  { cond := w.extractLsb' 32 4, rd := w.extractLsb' 19 5, ra := w.extractLsb' 14 5, sf := w.extractLsb' 13 1, imm := w.extractLsb' 0 13 }

/-- The fields of FmtSH in a word. -/
def FmtSH.ofWord (w : W36) : FmtSH :=
  { cond := w.extractLsb' 32 4, rd := w.extractLsb' 19 5, ra := w.extractLsb' 14 5, sf := w.extractLsb' 13 1, kind := w.extractLsb' 11 2,
    rsv := w.extractLsb' 6 5, shamt := w.extractLsb' 0 6 }

/-- The fields of FmtX in a word. -/
def FmtX.ofWord (w imm : W36) : FmtX :=
  { cond := w.extractLsb' 32 4, rd := w.extractLsb' 19 5, ra := w.extractLsb' 14 5, sf := w.extractLsb' 13 1, rsv := w.extractLsb' 0 13, imm }

/-- The fields of FmtP in a word. -/
def FmtP.ofWord (w : W36) : FmtP :=
  { cond := w.extractLsb' 32 4, pd := w.extractLsb' 22 2, rel := w.extractLsb' 19 3, ra := w.extractLsb' 14 5, rb := w.extractLsb' 9 5,
    rsv := w.extractLsb' 0 9 }

/-- The fields of FmtM in a word. -/
def FmtM.ofWord (w : W36) : FmtM :=
  { cond := w.extractLsb' 32 4, rt := w.extractLsb' 19 5, ra := w.extractLsb' 14 5, sz := w.extractLsb' 12 2, sx := w.extractLsb' 11 1,
    off := w.extractLsb' 0 11 }

/-- The fields of FmtS in a word. -/
def FmtS.ofWord (w : W36) : FmtS :=
  { cond := w.extractLsb' 32 4, rs := w.extractLsb' 19 5, ra := w.extractLsb' 14 5, off := w.extractLsb' 0 14 }

/-- The fields of FmtN in a word. -/
def FmtN.ofWord (w : W36) : FmtN :=
  { cond := w.extractLsb' 32 4, rsv := w.extractLsb' 0 24 }

/-- The fields of FmtB in a word. -/
def FmtB.ofWord (w : W36) : FmtB :=
  { cond := w.extractLsb' 32 4, rd := w.extractLsb' 19 5, rsv := w.extractLsb' 16 3, disp := w.extractLsb' 0 16 }

/-- The fields of FmtJ in a word. -/
def FmtJ.ofWord (w : W36) : FmtJ :=
  { cond := w.extractLsb' 32 4, rd := w.extractLsb' 19 5, ra := w.extractLsb' 14 5, rsv := w.extractLsb' 0 14 }

/-- The fields of FmtL in a word. -/
def FmtL.ofWord (w : W36) : FmtL :=
  { cond := w.extractLsb' 32 4, rsv1 := w.extractLsb' 19 5, ra := w.extractLsb' 14 5, rsv2 := w.extractLsb' 12 2, len := w.extractLsb' 0 12 }

/-- The fields of FmtLI in a word. -/
def FmtLI.ofWord (w : W36) : FmtLI :=
  { cond := w.extractLsb' 32 4, cnt := w.extractLsb' 12 12, len := w.extractLsb' 0 12 }

/-- The fields of FmtLP in a word. -/
def FmtLP.ofWord (w : W36) : FmtLP :=
  { cond := w.extractLsb' 32 4, rsv := w.extractLsb' 2 22, nm1 := w.extractLsb' 0 2 }

/-- The fields of FmtC in a word. -/
def FmtC.ofWord (w : W36) : FmtC :=
  { cond := w.extractLsb' 32 4, sreg := w.extractLsb' 16 8, rx := w.extractLsb' 11 5, rsv := w.extractLsb' 0 11 }

/-- The fields of FmtTrap in a word. -/
def FmtTrap.ofWord (w : W36) : FmtTrap :=
  { cond := w.extractLsb' 32 4, tgt := w.extractLsb' 23 1, rsv := w.extractLsb' 16 7, code := w.extractLsb' 0 16 }

/-- The fields of FmtRetx in a word. -/
def FmtRetx.ofWord (w : W36) : FmtRetx :=
  { cond := w.extractLsb' 32 4, rsv := w.extractLsb' 2 22, adv := w.extractLsb' 0 2 }

/-- The fields of FmtReseal in a word. -/
def FmtReseal.ofWord (w : W36) : FmtReseal :=
  { cond := w.extractLsb' 32 4, rd := w.extractLsb' 19 5, ra := w.extractLsb' 14 5, rsv := w.extractLsb' 0 14 }

/-- The fields of FmtVS in a word. -/
def FmtVS.ofWord (w : W36) : FmtVS :=
  { cond := w.extractLsb' 32 4, rd := w.extractLsb' 19 5, ra := w.extractLsb' 14 5, sew := w.extractLsb' 12 2, grp := w.extractLsb' 10 2,
    fpk := w.extractLsb' 9 1, rsv := w.extractLsb' 0 9 }

/-- The fields of FmtVC in a word. -/
def FmtVC.ofWord (w : W36) : FmtVC :=
  { cond := w.extractLsb' 32 4, rd := w.extractLsb' 19 5, ra := w.extractLsb' 14 5, w := w.extractLsb' 13 1, rsv := w.extractLsb' 8 5,
    csr := w.extractLsb' 0 8 }

/-- The fields of FmtVV in a word. -/
def FmtVV.ofWord (w : W36) : FmtVV :=
  { cond := w.extractLsb' 32 4, vd := w.extractLsb' 19 5, va := w.extractLsb' 14 5, vb := w.extractLsb' 9 5, ms := w.extractLsb' 6 3,
    mz := w.extractLsb' 5 1, src := w.extractLsb' 3 2 }

/-- The fields of FmtVM in a word. -/
def FmtVM.ofWord (w : W36) : FmtVM :=
  { cond := w.extractLsb' 32 4, vd := w.extractLsb' 19 5, ra := w.extractLsb' 14 5, rb := w.extractLsb' 9 5, ms := w.extractLsb' 6 3,
    mz := w.extractLsb' 5 1, sp := w.extractLsb' 4 1, ix := w.extractLsb' 3 1, rsv := w.extractLsb' 0 3 }

/-- The fields of FmtVX in a word. -/
def FmtVX.ofWord (w : W36) : FmtVX :=
  { cond := w.extractLsb' 32 4, vd := w.extractLsb' 19 5, va := w.extractLsb' 14 5, dfmt := w.extractLsb' 10 4, sfmt := w.extractLsb' 6 4,
    ms := w.extractLsb' 3 3, mz := w.extractLsb' 2 1, sat := w.extractLsb' 1 1, rsv := w.extractLsb' 0 1 }

/-- The fields of FmtVT in a word. -/
def FmtVT.ofWord (w : W36) : FmtVT :=
  { cond := w.extractLsb' 32 4, vd := w.extractLsb' 19 5, ra := w.extractLsb' 14 5, t := w.extractLsb' 9 5, ms := w.extractLsb' 6 3,
    mz := w.extractLsb' 5 1, rsv := w.extractLsb' 0 5 }

/-- The fields of FmtF in a word. -/
def FmtF.ofWord (w : W36) : FmtF :=
  { cond := w.extractLsb' 32 4, t := w.extractLsb' 19 5, ra := w.extractLsb' 14 5, rb := w.extractLsb' 9 5, fmt := w.extractLsb' 5 4,
    ovw := w.extractLsb' 4 1, rnd := w.extractLsb' 2 2, clamp := w.extractLsb' 1 1, wide := w.extractLsb' 0 1 }

/-- The fields of FmtG in a word. -/
def FmtG.ofWord (w : W36) : FmtG :=
  { cond := w.extractLsb' 32 4, t := w.extractLsb' 19 5, ra := w.extractLsb' 14 5, rb := w.extractLsb' 9 5, fmt := w.extractLsb' 5 4,
    ovw := w.extractLsb' 4 1, gop := w.extractLsb' 1 3, wide := w.extractLsb' 0 1 }

/-- The fields of FmtPL in a word. -/
def FmtPL.ofWord (w : W36) : FmtPL :=
  { cond := w.extractLsb' 32 4, rsv1 := w.extractLsb' 19 5, ra := w.extractLsb' 14 5, rb := w.extractLsb' 9 5, pl := w.extractLsb' 8 1,
    rsv2 := w.extractLsb' 0 8 }

/-- The fields of FmtTS in a word. -/
def FmtTS.ofWord (w : W36) : FmtTS :=
  { cond := w.extractLsb' 32 4, rd := w.extractLsb' 19 5, ra := w.extractLsb' 14 5, rsv := w.extractLsb' 0 14 }

/-- The fields of FmtSeed in a word. -/
def FmtSeed.ofWord (w : W36) : FmtSeed :=
  { cond := w.extractLsb' 32 4, rsv1 := w.extractLsb' 19 5, ra := w.extractLsb' 14 5, rsv2 := w.extractLsb' 0 14 }

/-- The fields of FmtD in a word. -/
def FmtD.ofWord (w : W36) : FmtD :=
  { cond := w.extractLsb' 32 4, t := w.extractLsb' 19 5, ra := w.extractLsb' 14 5, rb := w.extractLsb' 9 5, rc := w.extractLsb' 4 5,
    wide := w.extractLsb' 3 1, rsv := w.extractLsb' 0 3 }

/-- The fields of FmtFence in a word. -/
def FmtFence.ofWord (w : W36) : FmtFence :=
  { cond := w.extractLsb' 32 4, lq := w.extractLsb' 20 1, fq := w.extractLsb' 19 1, rsv := w.extractLsb' 0 19 }

/-- The fields of FmtCinv in a word. -/
def FmtCinv.ofWord (w : W36) : FmtCinv :=
  { cond := w.extractLsb' 32 4, lvl := w.extractLsb' 22 2, rsv1 := w.extractLsb' 19 3, ra := w.extractLsb' 14 5, rb := w.extractLsb' 9 5,
    rsv2 := w.extractLsb' 0 9 }

/-- The fields of FmtAtom in a word. -/
def FmtAtom.ofWord (w : W36) : FmtAtom :=
  { cond := w.extractLsb' 32 4, rd := w.extractLsb' 19 5, ra := w.extractLsb' 14 5, rb := w.extractLsb' 9 5, sz := w.extractLsb' 4 1,
    sp := w.extractLsb' 3 1, mo := w.extractLsb' 0 3 }

/-- The fields of FmtRing in a word. -/
def FmtRing.ofWord (w : W36) : FmtRing :=
  { cond := w.extractLsb' 32 4, scope := w.extractLsb' 21 3, ra := w.extractLsb' 14 5, rb := w.extractLsb' 9 5, imm := w.extractLsb' 0 9 }

/-- The fields of FmtWait in a word. -/
def FmtWait.ofWord (w : W36) : FmtWait :=
  { cond := w.extractLsb' 32 4, scope := w.extractLsb' 21 3, rsv1 := w.extractLsb' 19 1, ra := w.extractLsb' 14 5, rb := w.extractLsb' 9 5,
    rsv2 := w.extractLsb' 0 9 }

/-- The fields of FmtPeal in a word. -/
def FmtPeal.ofWord (w : W36) : FmtPeal :=
  { cond := w.extractLsb' 32 4, scope := w.extractLsb' 21 3, rsv1 := w.extractLsb' 19 2, ra := w.extractLsb' 14 5, rb := w.extractLsb' 9 5,
    rd := w.extractLsb' 4 5, rsv2 := w.extractLsb' 0 4 }

/-- The fields of FmtChime in a word. -/
def FmtChime.ofWord (w : W36) : FmtChime :=
  { cond := w.extractLsb' 32 4, scope := w.extractLsb' 21 3, rsv1 := w.extractLsb' 19 2, ra := w.extractLsb' 14 5, rb := w.extractLsb' 9 5,
    imm := w.extractLsb' 0 9 }

/-! ## Opcodes (02 tables 2.3 and 2.5; 04 table 4.4; 05 table 5.1; 07 table 7.1; 08 tables 8.2, 8.4 and 8.5; 11 table 11.1) -/

/-- The instructions of opcode 0x01, by their function code. -/
def aluOf (b : BenchId) (w : W36) : Option Instr :=
  match (w.extractLsb' 0 8).toNat with
  | 0 => some (.add b (FmtR.ofWord w))
  | 1 => some (.sub b (FmtR.ofWord w))
  | 2 => some (.adc b (FmtR.ofWord w))
  | 3 => some (.sbc b (FmtR.ofWord w))
  | 4 => some (.and b (FmtR.ofWord w))
  | 5 => some (.or b (FmtR.ofWord w))
  | 6 => some (.xor b (FmtR.ofWord w))
  | 7 => some (.andn b (FmtR.ofWord w))
  | 8 => some (.sll b (FmtR.ofWord w))
  | 9 => some (.srl b (FmtR.ofWord w))
  | 10 => some (.sra b (FmtR.ofWord w))
  | 11 => some (.ror b (FmtR.ofWord w))
  | 12 => some (.min b (FmtR.ofWord w))
  | 13 => some (.max b (FmtR.ofWord w))
  | 14 => some (.minu b (FmtR.ofWord w))
  | 15 => some (.maxu b (FmtR.ofWord w))
  | 16 => some (.clz b (FmtR.ofWord w))
  | 17 => some (.popc b (FmtR.ofWord w))
  | _ => none

/-- The instructions of opcode 0x10, by their function code. -/
def mulcOf (b : BenchId) (w : W36) : Option Instr :=
  match (w.extractLsb' 0 8).toNat with
  | 0 => some (.mul b (FmtR.ofWord w))
  | 1 => some (.mulhu b (FmtR.ofWord w))
  | 2 => some (.mulhs b (FmtR.ofWord w))
  | _ => none

/-- The instructions of opcode 0x11, by their function code. -/
def divcOf (b : BenchId) (w : W36) : Option Instr :=
  match (w.extractLsb' 0 8).toNat with
  | 0 => some (.divu b (FmtR.ofWord w))
  | 1 => some (.divs b (FmtR.ofWord w))
  | 2 => some (.remu b (FmtR.ofWord w))
  | 3 => some (.rems b (FmtR.ofWord w))
  | _ => none

/-- The instructions of opcode 0x26, by their function code. -/
def atomicOf (b : BenchId) (w : W36) : Option Instr :=
  match (w.extractLsb' 5 4).toNat with
  | 0 => some (.aswap b (FmtAtom.ofWord w))
  | 1 => some (.aadd b (FmtAtom.ofWord w))
  | 2 => some (.aand b (FmtAtom.ofWord w))
  | 3 => some (.aor b (FmtAtom.ofWord w))
  | 4 => some (.axor b (FmtAtom.ofWord w))
  | 5 => some (.amin b (FmtAtom.ofWord w))
  | 6 => some (.amax b (FmtAtom.ofWord w))
  | 7 => some (.aminu b (FmtAtom.ofWord w))
  | 8 => some (.amaxu b (FmtAtom.ofWord w))
  | 9 => some (.acas b (FmtAtom.ofWord w))
  | 10 => some (.afadd b (FmtAtom.ofWord w))
  | 11 => some (.ald b (FmtAtom.ofWord w))
  | 12 => some (.ast b (FmtAtom.ofWord w))
  | _ => none

/-- The instructions of opcode 0x38, by their function code. -/
def ringOf (b : BenchId) (w : W36) : Option Instr :=
  match (w.extractLsb' 19 2).toNat with
  | 0 => some (.ringAdd b (FmtRing.ofWord w))
  | 1 => some (.ringSet b (FmtRing.ofWord w))
  | 2 => some (.ringAbort b (FmtRing.ofWord w))
  | _ => none

/-- The instructions of opcode 0x39, by their function code. -/
def waitOf (b : BenchId) (w : W36) : Option Instr :=
  match (w.extractLsb' 20 1).toNat with
  | 0 => some (.wait b (FmtWait.ofWord w))
  | 1 => some (.waitAsync b (FmtWait.ofWord w))
  | _ => none

/-- The instructions of opcode 0x3C, by their function code. -/
def fenceOf (b : BenchId) (w : W36) : Option Instr :=
  match (w.extractLsb' 21 3).toNat with
  | 0 => some (.fenceB b (FmtFence.ofWord w))
  | 1 => some (.fenceS b (FmtFence.ofWord w))
  | 2 => some (.fenceH b (FmtFence.ofWord w))
  | 3 => some (.fenceD b (FmtFence.ofWord w))
  | 4 => some (.fenceP b (FmtFence.ofWord w))
  | _ => none

/-- The instructions of opcode 0x50, by their function code. -/
def vv50Of (b : BenchId) (w : W36) : Option Instr :=
  match (w.extractLsb' 0 3).toNat with
  | 0 => some (.vadd b (FmtVV.ofWord w) {})
  | 1 => some (.vsub b (FmtVV.ofWord w) {})
  | 2 => some (.vrsub b (FmtVV.ofWord w) {})
  | 3 => some (.vand b (FmtVV.ofWord w) {})
  | 4 => some (.vor b (FmtVV.ofWord w) {})
  | 5 => some (.vxor b (FmtVV.ofWord w) {})
  | 6 => some (.vsll b (FmtVV.ofWord w) {})
  | 7 => some (.vsrl b (FmtVV.ofWord w) {})
  | _ => none

/-- The instructions of opcode 0x51, by their function code. -/
def vv51Of (b : BenchId) (w : W36) : Option Instr :=
  match (w.extractLsb' 0 3).toNat with
  | 0 => some (.vsra b (FmtVV.ofWord w) {})
  | 1 => some (.vmin b (FmtVV.ofWord w) {})
  | 2 => some (.vmax b (FmtVV.ofWord w) {})
  | 3 => some (.vminu b (FmtVV.ofWord w) {})
  | 4 => some (.vmaxu b (FmtVV.ofWord w) {})
  | 5 => some (.vmul b (FmtVV.ofWord w) {})
  | 6 => some (.vmulh b (FmtVV.ofWord w) {})
  | 7 => some (.vmulhu b (FmtVV.ofWord w) {})
  | _ => none

/-- The instructions of opcode 0x52, by their function code. -/
def vv52Of (b : BenchId) (w : W36) : Option Instr :=
  match (w.extractLsb' 0 3).toNat with
  | 0 => some (.vaddsat b (FmtVV.ofWord w) {})
  | 1 => some (.vaddsatu b (FmtVV.ofWord w) {})
  | 2 => some (.vsubsat b (FmtVV.ofWord w) {})
  | 3 => some (.vsubsatu b (FmtVV.ofWord w) {})
  | 4 => some (.vavg b (FmtVV.ofWord w) {})
  | 5 => some (.vavgu b (FmtVV.ofWord w) {})
  | 6 => some (.vfrmul b (FmtVV.ofWord w) {})
  | _ => none

/-- The instructions of opcode 0x53, by their function code. -/
def vv53Of (b : BenchId) (w : W36) : Option Instr :=
  match (w.extractLsb' 0 3).toNat with
  | 0 => some (.vshrr b (FmtVV.ofWord w) {})
  | 1 => some (.vshrra b (FmtVV.ofWord w) {})
  | 2 => some (.vclipnu b (FmtVV.ofWord w) {})
  | 3 => some (.vclipn b (FmtVV.ofWord w) {})
  | _ => none

/-- The instructions of opcode 0x58, by their function code. -/
def vv58Of (b : BenchId) (w : W36) : Option Instr :=
  match (w.extractLsb' 0 3).toNat with
  | 0 => some (.vfadd b (FmtVV.ofWord w) {})
  | 1 => some (.vfsub b (FmtVV.ofWord w) {})
  | 2 => some (.vfmul b (FmtVV.ofWord w) {})
  | 3 => some (.vfdiv b (FmtVV.ofWord w) {})
  | 4 => some (.vfsqrt b (FmtVV.ofWord w) {})
  | 5 => some (.vfminnum b (FmtVV.ofWord w) {})
  | 6 => some (.vfmaxnum b (FmtVV.ofWord w) {})
  | _ => none

/-- The instructions of opcode 0x59, by their function code. -/
def vv59Of (b : BenchId) (w : W36) : Option Instr :=
  match (w.extractLsb' 0 3).toNat with
  | 0 => some (.vfmin b (FmtVV.ofWord w) {})
  | 1 => some (.vfmax b (FmtVV.ofWord w) {})
  | 2 => some (.vfabs b (FmtVV.ofWord w) {})
  | 3 => some (.vfneg b (FmtVV.ofWord w) {})
  | _ => none

/-- The instructions of opcode 0x5A, by their function code. -/
def vv5AOf (b : BenchId) (w : W36) : Option Instr :=
  match (w.extractLsb' 0 3).toNat with
  | 0 => some (.vfma b (FmtVV.ofWord w) {})
  | 1 => some (.vfms b (FmtVV.ofWord w) {})
  | 2 => some (.vfnma b (FmtVV.ofWord w) {})
  | 3 => some (.vfnms b (FmtVV.ofWord w) {})
  | _ => none

/-- The instructions of opcode 0x5C, by their function code. -/
def vv5COf (b : BenchId) (w : W36) : Option Instr :=
  match (w.extractLsb' 0 3).toNat with
  | 0 => some (.vceq b (FmtVV.ofWord w) {})
  | 1 => some (.vcne b (FmtVV.ofWord w) {})
  | 2 => some (.vclt b (FmtVV.ofWord w) {})
  | 3 => some (.vcge b (FmtVV.ofWord w) {})
  | 4 => some (.vcltu b (FmtVV.ofWord w) {})
  | 5 => some (.vcgeu b (FmtVV.ofWord w) {})
  | _ => none

/-- The instructions of opcode 0x5D, by their function code. -/
def vv5DOf (b : BenchId) (w : W36) : Option Instr :=
  match (w.extractLsb' 0 3).toNat with
  | 0 => some (.vfceq b (FmtVV.ofWord w) {})
  | 1 => some (.vfclt b (FmtVV.ofWord w) {})
  | 2 => some (.vfcle b (FmtVV.ofWord w) {})
  | 3 => some (.vfcun b (FmtVV.ofWord w) {})
  | _ => none

/-- The instructions of opcode 0x64, by their function code. -/
def vv64Of (b : BenchId) (w : W36) : Option Instr :=
  match (w.extractLsb' 0 3).toNat with
  | 0 => some (.vrsum b (FmtVV.ofWord w) {})
  | 1 => some (.vrmax b (FmtVV.ofWord w) {})
  | 2 => some (.vrmin b (FmtVV.ofWord w) {})
  | 3 => some (.vrmaxu b (FmtVV.ofWord w) {})
  | 4 => some (.vrminu b (FmtVV.ofWord w) {})
  | 5 => some (.vfrsum b (FmtVV.ofWord w) {})
  | 6 => some (.vfrmax b (FmtVV.ofWord w) {})
  | 7 => some (.vfrmin b (FmtVV.ofWord w) {})
  | _ => none

/-- The instructions of opcode 0x68, by their function code. -/
def vv68Of (b : BenchId) (w : W36) : Option Instr :=
  match (w.extractLsb' 0 3).toNat with
  | 0 => some (.mand b (FmtVV.ofWord w) {})
  | 1 => some (.mor b (FmtVV.ofWord w) {})
  | 2 => some (.mxor b (FmtVV.ofWord w) {})
  | 3 => some (.mandn b (FmtVV.ofWord w) {})
  | 4 => some (.mnot b (FmtVV.ofWord w) {})
  | 5 => some (.msetMask b (FmtVV.ofWord w) {})
  | 6 => some (.mclr b (FmtVV.ofWord w) {})
  | _ => none

/-- The instructions of opcode 0x69, by their function code. -/
def vv69Of (b : BenchId) (w : W36) : Option Instr :=
  match (w.extractLsb' 0 3).toNat with
  | 0 => some (.vmpop b (FmtVV.ofWord w) {})
  | 1 => some (.vmfirst b (FmtVV.ofWord w) {})
  | _ => none

/-- The instructions of opcode 0x6C, by their function code. -/
def vv6COf (b : BenchId) (w : W36) : Option Instr :=
  match (w.extractLsb' 0 3).toNat with
  | 0 => some (.vmv b (FmtVV.ofWord w) {})
  | 1 => some (.vmerge b (FmtVV.ofWord w) {})
  | 2 => some (.vext b (FmtVV.ofWord w) {})
  | 3 => some (.vins b (FmtVV.ofWord w) {})
  | 4 => some (.vid b (FmtVV.ofWord w) {})
  | _ => none

/-- The instruction that a word, with the word after it, spells for bench `b` (02 R44, R45): OPC is bits [31:24], and a function code selects
within an opcode. None: the word raises Illegal opcode or Reserved opcode. How far an engine comes with it, and what the hardware meets, is not in
the word. -/
def instrOf (b : BenchId) (w imm : W36) : Option Instr :=
  match (w.extractLsb' 24 8).toNat with
  | 0x01 => aluOf b w
  | 0x02 => some (.addi b (FmtI.ofWord w))
  | 0x03 => some (.andi b (FmtI.ofWord w))
  | 0x04 => some (.ori b (FmtI.ofWord w))
  | 0x05 => some (.xori b (FmtI.ofWord w))
  | 0x06 => some (.shi b (FmtSH.ofWord w))
  | 0x07 => some (.cmpi b (FmtI.ofWord w))
  | 0x08 => some (.li b (FmtX.ofWord w imm))
  | 0x09 => some (.lih b (FmtX.ofWord w imm))
  | 0x0A => some (.addl b (FmtX.ofWord w imm))
  | 0x10 => mulcOf b w
  | 0x11 => divcOf b w
  | 0x18 => some (.pcmp b (FmtP.ofWord w))
  | 0x20 => some (.ld b (FmtM.ofWord w))
  | 0x21 => some (.st b (FmtM.ofWord w))
  | 0x22 => some (.ldg b (FmtM.ofWord w))
  | 0x23 => some (.stg b (FmtM.ofWord w))
  | 0x24 => some (.stp b (FmtS.ofWord w))
  | 0x25 => some (.psync b (FmtN.ofWord w))
  | 0x26 => atomicOf b w
  | 0x28 => some (.br b (FmtB.ofWord w))
  | 0x29 => some (.jal b (FmtB.ofWord w))
  | 0x2A => some (.jr b (FmtJ.ofWord w))
  | 0x2B => some (.loop b (FmtL.ofWord w))
  | 0x2C => some (.loopi b (FmtLI.ofWord w))
  | 0x2D => some (.lpop b (FmtLP.ofWord w))
  | 0x30 => some (.mset b (FmtC.ofWord w))
  | 0x31 => some (.mget b (FmtC.ofWord w))
  | 0x32 => some (.trap b (FmtTrap.ofWord w))
  | 0x33 => some (.retx b (FmtRetx.ofWord w))
  | 0x34 => some (.reseal b (FmtReseal.ofWord w))
  | 0x38 => ringOf b w
  | 0x39 => waitOf b w
  | 0x3A => some (.peal b (FmtPeal.ofWord w))
  | 0x3B => some (.chime b (FmtChime.ofWord w))
  | 0x3C => fenceOf b w
  | 0x3D => some (.cinv b (FmtCinv.ofWord w))
  | 0x40 => some (.vsetl b (FmtVS.ofWord w))
  | 0x41 => some (.vcsr b (FmtVC.ofWord w))
  | 0x44 => some (.vld b { f := FmtVM.ofWord w })
  | 0x45 => some (.vst b { f := FmtVM.ofWord w })
  | 0x46 => some (.vlds b { f := FmtVM.ofWord w })
  | 0x47 => some (.vsts b { f := FmtVM.ofWord w })
  | 0x48 => some (.vgath b { f := FmtVM.ofWord w })
  | 0x49 => some (.vscat b { f := FmtVM.ofWord w })
  | 0x4A => some (.vgathFf b { f := FmtVM.ofWord w })
  | 0x50 => vv50Of b w
  | 0x51 => vv51Of b w
  | 0x52 => vv52Of b w
  | 0x53 => vv53Of b w
  | 0x58 => vv58Of b w
  | 0x59 => vv59Of b w
  | 0x5A => vv5AOf b w
  | 0x5C => vv5COf b w
  | 0x5D => vv5DOf b w
  | 0x60 => some (.vcvt b (FmtVX.ofWord w) {})
  | 0x64 => vv64Of b w
  | 0x68 => vv68Of b w
  | 0x69 => vv69Of b w
  | 0x6C => vv6COf b w
  | 0x6E => some (.vtld b (FmtVT.ofWord w) {})
  | 0x6F => some (.vtst b (FmtVT.ofWord w) {})
  | 0x80 => some (.fop b (FmtF.ofWord w) none [])
  | 0x81 => some (.fgauge b (FmtG.ofWord w) none [])
  | 0x82 => some (.pload b { f := FmtPL.ofWord w })
  | 0x83 => some (.tsync b (FmtTS.ofWord w))
  | 0x84 => some (.seed b (FmtSeed.ofWord w))
  | 0x88 => some (.drain b (FmtD.ofWord w) none [])
  | 0x89 => some (.drainC b (FmtD.ofWord w) none [])
  | _ => none

end Sys2Proof
end

