-- ==== Sys2Proof/Config.lean ====
section
/-! DEFINITION. What the manual leaves open: free values. Each is an opaque constant without a body, so no proof can
see a value of it; where a fresh value is needed it is applied to State.draws, a plain counter (DESIGN CHOICE, log 2). -/

namespace Sys2Proof.Config

/-- The secret XKEY that bench `b` draws at its `n`-th draw (03 R97): from Sheler's random source. -/
opaque xkey (b n : Nat) : BitVec 64
/-- A-cycles that a stall of the core lasts (02 R52 calls stalls no part of the count). -/
opaque stallCycles (n : Nat) : BitVec 64
/-- Bits [31:0] of the device's F-cycle count when a fault record is made (09 Table 9.8): no timing is modelled. DESIGN CHOICE, log 52. -/
opaque fStamp (n : Nat) : BitVec 32
/-- The physical row in which an injected residue mismatch falls (07 CRU_RCHK_CFG.INJ names no row). DESIGN CHOICE, log 36. -/
opaque injectedRow (n : Nat) : BitVec 7
/-- The free joined-fault entry taken: any free one (09 R290). The draw picks among the free entries. DESIGN CHOICE, log 45. -/
opaque faultEntry (n : Nat) : Nat
/-- EVENT of the service record that a bench sends when a row count reaches ROWTH (07 R236 gives no number). -/
opaque rowEvent : BitVec 16
/-- The old (true) or new contents read where 07 R224 and 10 R322 allow either. DESIGN CHOICE, log 56. -/
opaque oldOrNew (n : Nat) : Bool
/-- Which free job slot a stream is bound to (11 R354 names none). The draw picks among the free slots. DESIGN CHOICE, log 62. -/
opaque freeSlot (n : Nat) : Nat
/-- The ADDR that a carter reports with an error that no element has caused (10 table 10.2 names an element's address).
DESIGN CHOICE, log 57. -/
opaque descAddr (n : Nat) : BitVec 52
/-- Whether an atomic operation whose response is late has been performed (08 R255). DESIGN CHOICE, log 40. -/
opaque atomicDone (n : Nat) : Bool
/-- Whether a store that meets a Bus error at element k has performed an active element above k (04 R146), drawn for each. -/
opaque storesAbove (n : Nat) : Bool
/-- Whether a carter's failing descriptor has performed an element above the failing one (10 R324), drawn for each. -/
opaque elementsAbove (n : Nat) : Bool
/-- Fresh helper data of the physically unclonable function at enrolment (17 R489). -/
opaque helperData (n : Nat) : List Byte
/-- The corrected secret bits for given helper data on this part (17 R489). -/
opaque correctedBits (helper : List Byte) : List Byte
/-- Falcon-1024 key generation from a random byte stream's seed: the public key (17 R489). -/
opaque falconPublic (seed : List Byte) : List Byte
/-- Falcon-1024 signature of a message by the key of a seed; it is randomised, so `n` draws it (17 R491, R501). -/
opaque falconSign (seed msg : List Byte) (n : Nat) : List Byte
/-- Falcon-1024 verification of a signature by a public key (17 R490, R493). -/
opaque falconVerify (key msg sig : List Byte) : Bool
/-- The Velmacy root digest in the mask ROM (17 R493); the manual gives no value. -/
opaque rootDigest : List Byte
/-- The mean estimated A-clock draw of a shop over the last 10 microseconds, in units of 0.25 A (15 Table 15.4). -/
opaque shopDraw (shop n : Nat) : Nat
/-- The activity of a shop over the last 10 microseconds, in percent (15 R461). DESIGN CHOICE, log 157. -/
opaque shopActivity (n shop : Nat) : Nat
/-- A bench's forge activity over its last 1,024 A-cycles in eighths, rounded up, of which at most 8 count (15 R459).
DESIGN CHOICE, log 106. -/
opaque forgeActivity (b n : Nat) : Nat
/-- Where in that area the progress record of Table 7.8 stands, in words (11 table 11.8). -/
opaque progressAt : Nat
/-- Bytes of the 16 KiB area of a state image, whose layout Table 11.8 does not give (11 R369). -/
opaque imageByte (n off : Nat) : Byte
/-- The value SEC_STATE.MS and other millisecond counts hold when read: no timing is modelled (17). DESIGN CHOICE, log 128. -/
opaque millis (n : Nat) : BitVec 16

/-- DATA word 2 of a ROW_REPAIRED record: "bank and row", in places that the manual does not give (13 Table 13.5). DESIGN CHOICE, log 77. -/
opaque repairData (bank row : Nat) : BitVec 64
/-- DATA words 2 and 3 of a RELIEF_START record: "group and channel" and "reserve bytes" (13 Table 13.5), in places and by a
count that the manual does not give. -/
opaque reliefData (g ch : Nat) : BitVec 64
opaque reserveData (perChannel channels : Nat) : BitVec 64
/-- Units of 16 bytes of a port's receive buffer for a class and a layer (14 R430 gives no size). DESIGN CHOICE, log 156. -/
opaque bufferUnits (cls layer : Nat) : Nat
/-- Bank and row of a channel's offset (13 R420 gives no geometry of a stack). DESIGN CHOICE, log 92. -/
opaque rowOf (chan off : Nat) : Nat × Nat
/-- F-cycles that a relief has taken (13 Table 13.5): no timing is modelled. -/
opaque reliefCycles (n : Nat) : BitVec 64

/-- DATA word 3 of a SELFTEST_FAIL record that reports a bench excluded by a TYPE 4 entry (17 Table 17.10 names no unit for it). -/
opaque excludedUnit (b : Nat) : BitVec 64

end Sys2Proof.Config
end

