-- ==== Sys2Proof/Machine/Sparse.lean ====
section
/-! DEFINITION. Sparse data by key in one form: a list of (key, value) pairs, keys rising. `set` keeps the canonical form
(no entry equal to what an unlisted key reads as); `put` keeps an entry whatever its value. -/

namespace Sys2Proof

/-- Sparse data: (key, value) pairs. -/
abbrev Sparse (α : Type) := List (Nat × α)

/-- A byte memory: an unlisted address reads as 0 (DESIGN CHOICE, log 3). -/
abbrev Memory := Sparse Byte

namespace Sp

/-- The value at key `k`; an unlisted key reads as `d k`. -/
def get {α : Type} (d : Nat → α) : Sparse α → Nat → α
  | [], k => d k
  | (j, v) :: r, k => if j = k then v else get d r k

/-- The entry at key `k`, if one is listed. -/
def find {α : Type} : Sparse α → Nat → Option α
  | [], _ => none
  | (j, v) :: r, k => if j = k then some v else find r k

/-- Stores `v` at key `k`, keeping the keys in order. -/
def put {α : Type} : Sparse α → Nat → α → Sparse α
  | [], k, v => [(k, v)]
  | (j, w) :: r, k, v =>
    if j = k then (k, v) :: r
    else if k < j then (k, v) :: (j, w) :: r
    else (j, w) :: put r k v

/-- Removes every entry of key `k`. -/
def erase {α : Type} : Sparse α → Nat → Sparse α
  | [], _ => []
  | (j, w) :: r, k => if j = k then erase r k else (j, w) :: erase r k

/-- Stores `v` at `k` in the canonical form: a value equal to the default leaves no entry. -/
def set {α : Type} [DecidableEq α] (d : Nat → α) (m : Sparse α) (k : Nat) (v : α) : Sparse α :=
  if v = d k then erase m k else put m k v

/-- Removes every entry whose key lies in [lo, hi). -/
def eraseRange {α : Type} (m : Sparse α) (lo hi : Nat) : Sparse α :=
  m.filter fun p => !(lo ≤ p.1 && p.1 < hi)

/-- The entries whose key lies in [lo, hi), with `lo` subtracted. -/
def slice {α : Type} (m : Sparse α) (lo hi : Nat) : Sparse α :=
  (m.filter fun p => lo ≤ p.1 && p.1 < hi).map fun p => (p.1 - lo, p.2)

/-- Stores every entry of `src` at its key plus `base`. -/
def overlay {α : Type} (m : Sparse α) (base : Nat) (src : Sparse α) : Sparse α :=
  src.foldl (fun m p => put m (base + p.1) p.2) m

/-- The first key above every listed one is not listed: keys are strictly rising from `lo`. -/
def rising {α : Type} : Nat → Sparse α → Bool
  | _, [] => true
  | lo, (k, _) :: r => decide (lo ≤ k) && rising (k + 1) r

/-- The canonical form: strictly rising keys and no entry equal to what an unlisted key reads as. -/
def wf {α : Type} [DecidableEq α] (d : Nat → α) (m : Sparse α) : Bool :=
  rising 0 m && m.all fun p => decide (p.2 ≠ d p.1)

end Sp

/-- A memory is in canonical form. -/
abbrev Memory.wf (m : Memory) : Bool := Sp.wf (fun _ => 0#8) m

/-- One byte of a memory. -/
def Memory.byte (m : Memory) (a : Nat) : Byte := Sp.get (fun _ => 0#8) m a

/-- Writes one byte of a memory. -/
def Memory.setByte (m : Memory) (a : Nat) (v : Byte) : Memory := Sp.set (fun _ => 0#8) m a v

/-- The unsigned value of `n` little-endian bytes, addresses taken through `f` (00, 02 R56). -/
def Memory.leNat (m : Memory) (f : Nat → Nat) (a : Nat) : Nat → Nat
  | 0 => 0
  | n + 1 => (m.byte (f a)).toNat + 256 * Memory.leNat m f (a + 1) n

/-- Writes `n` little-endian bytes of `v`, addresses taken through `f`. -/
def Memory.setLe (m : Memory) (f : Nat → Nat) (a : Nat) : Nat → Nat → Memory
  | 0, _ => m
  | n + 1, v => Memory.setLe (m.setByte (f a) (BitVec.ofNat 8 v)) f (a + 1) n (v / 256)

/-- `n` bytes from address `a`, in address order. -/
def Memory.bytes (m : Memory) (f : Nat → Nat) (a : Nat) : Nat → List Byte
  | 0 => []
  | n + 1 => m.byte (f a) :: Memory.bytes m f (a + 1) n

/-- Writes a list of bytes from address `a` up. -/
def Memory.setBytes (m : Memory) (f : Nat → Nat) (a : Nat) : List Byte → Memory
  | [] => m
  | v :: r => Memory.setBytes (m.setByte (f a) v) f (a + 1) r

/-- Writes cells as the outside world supplies them. -/
def Memory.setCells (m : Memory) : Cells → Memory
  | [] => m
  | (a, v) :: r => Memory.setCells (m.setByte a v) r

end Sys2Proof
end

