-- ==== Sys2Proof/Machine/Bench.lean ====
section
/-! DEFINITION. The state of one bench: its control core (02, 03), lathe (04), forge, crucible and ladle (05-07), bench store
and program store. Every field's default is its value after a bench reset. -/

namespace Sys2Proof.Machine

/-! ## The control core -/

/-- Condition flags and predicates (02 table 2.2; special register FLAGS). -/
structure Flags where
  z : Bool := false
  n : Bool := false
  c : Bool := false
  v : Bool := false
  p1 : Bool := false
  p2 : Bool := false
  p3 : Bool := false
  deriving DecidableEq, Repr

/-- One active hardware loop (02 R74): count, start and end. -/
structure LoopEntry where
  lc : W32
  ls : BitVec 16
  le : BitVec 16
  deriving DecidableEq, Repr

/-- A cause about to be raised (03 table 3.5): code, subcause, ADDR and INFO of the frame. -/
structure Cause where
  code : Byte
  sub : Byte := 0
  addr : W64 := 0
  info : W32 := 0
  deriving DecidableEq, Repr

/-- The engine whose entry a deferred cause stops: the lathe, or an executor of the forge (03 R107, 05 R175). -/
inductive Holder where
  | lathe | array | loader | ladle
  deriving DecidableEq, Repr

/-- A cause raised by an engine instruction after dispatch (03 R107), with the level at which it was dispatched. -/
structure Deferred where
  holder : Holder
  cause : Cause
  word : W36
  epc : BitVec 16
  level : BitVec 2
  deriving DecidableEq, Repr

/-- The check bits of a program-store word that is not clean (02 R60): one wrong bit, or an uncorrectable word. -/
inductive PsMark where
  | single | double
  deriving DecidableEq, Repr

/-- Where a translated request goes (09 R283-R285): memory of this device by DPA (the ingot, the yard or a bench-store window),
host memory under the requester ID of a function and, if any, a PASID (R284), or memory of a peer by its DPA. -/
inductive Target where
  | dpa (a : Nat)
  | host (fn : BitVec 6) (pasid : Option (BitVec 20)) (a : Nat)
  | peer (p : PeerId) (a : Nat)
  deriving DecidableEq, Repr

/-- What a translation gives a request: its target, the share mask and the class that it carries (09 R283-R285, R306), and the epoch
that was current when its walk began (R298). -/
structure Way where
  target : Target
  smask : BitVec 16
  watched : Bool
  epoch : W32
  deriving DecidableEq, Repr

/-- One piece of a scalar access by DVA: `len` bytes of a translated target at DVA `dva`. `cut`: its peer could not be reached when the
access was performed (09 R285). `nofill`: a CINV has invalidated its line of the shop cache while its fill was in flight (08 R262). -/
structure Piece where
  way : Way
  cut : Bool := false
  nofill : Bool := false
  dva : W64
  len : Nat
  deriving DecidableEq, Repr

/-- What a scalar access by DVA does (02 R56; 08 R263). -/
inductive AccessKind where
  | load (rd : R5) (signed : Bool)
  | store (v : W64)
  | atomic (aop : BitVec 4) (rd : R5) (operand expect : W64)
  deriving DecidableEq, Repr

/-- A scalar access by DVA: its kind, effective address, size in bytes and instruction word. -/
structure Access where
  kind : AccessKind
  ea : W64
  size : Nat
  word : W36
  deriving DecidableEq, Repr

/-- What an engine that cannot go on waits for: an entry of the joined-fault table (09 R290), quota (09 R293), or a response
from outside the device. -/
inductive EngWait where
  | fault (entry : Nat)
  | quota
  | ext
  deriving DecidableEq, Repr

/-- What a stalled core waits for (02 R52, R55, R72, R73; 08 R254, R255; 11 R348-R350; 09 R292). The instruction has not
completed; PC is its address. -/
inductive Stall where
  | queue (i : EngInstr)
  | scalar (r : R5)
  /-- The response of an LDG or an atomic operation whose pieces are translated. -/
  | response (a : Access) (parts : List Piece)
  /-- A translation that the joined-fault table holds, or quota. -/
  | fault (a : Access) (w : EngWait)
  | fence (word : W36)
  | bell (bell : BitVec 16) (target : W32) (word : W36) (scope : BitVec 3) (rd : Option R5)
  | chime (peer : PeerId) (seq : W32) (word : W36) (addr : W64)
  deriving DecidableEq, Repr

/-- Why a core halted (02 BEN_DBG_STATUS.WHY is the code). -/
abbrev HaltWhy := BitVec 4

/-- A word in the lookahead buffer (02 R60, R64): its address, its contents as fetched, and whether they were uncorrectable. -/
structure LookWord where
  addr : BitVec 16
  word : W36
  bad : Bool := false
  deriving DecidableEq, Repr

/-- The control core. DESIGN CHOICE, log 136. -/
structure Core where
  /-- s1-s31; s0 reads 0 (02 R46). -/
  sregs : Sparse W64 := []
  flags : Flags := {}
  /-- Active loops, innermost first (02 R75). -/
  loops : List LoopEntry := []
  plb : Bool := false
  len : Bool := false
  pc : BitVec 16 := 0
  cycle : W64 := 0
  /-- Lookahead buffer: up to two words with their addresses (02 R64). -/
  lookahead : List LookWord := []
  /-- The next instruction's Fetch state takes an A-cycle in normal mode (02 R53). -/
  fetchDue : Bool := true
  pl : BitVec 2 := 2
  /-- IEN3..IEN0 in bits 3..0 (03 R90). -/
  ien : BitVec 4 := 0
  bsk : Bool := false
  lda : Bool := false
  xdepth : BitVec 16 := 0
  /-- The Master bank; the Journeyman bank is BEN_XJ_SP, BEN_XJ_SL, BEN_XJ_BASE (03 R91). DESIGN CHOICE, log 5. -/
  mxsp : W64 := 0
  mxsl : W64 := 0
  mxbase : BitVec 16 := 0
  /-- Bits [63:22] of XSP and XSL of the Journeyman bank, which BEN_XJ_SP and BEN_XJ_SL do not show (02 table 2.8). DEDUCED, log 21. -/
  jspHi : BitVec 42 := 0
  jslHi : BitVec 42 := 0
  /-- XKEY is Config.xkey of the bench and this draw (03 R97), or the copy a state image restored. DESIGN CHOICE, log 6. -/
  xkeyBench : BenchId := 0
  xkeyDraw : Nat := 0
  /-- Pending causes (03 R107, R109). The forge's executors can raise several before the first is taken; oldest first. -/
  deferLathe : Option Deferred := none
  deferForge : List Deferred := []
  /-- What each frame now on the stacks lets go on when it is popped, newest first (03 R107). -/
  frames : List (BitVec 16 × Option Holder) := []
  pendPreempt : Bool := false
  pendNotice : Bool := false
  pendCount : Bool := false
  pendBell : Bool := false
  /-- Count match has been raised for the CYCLE value now reached (03 BEN_XCMP: raised once). -/
  countDone : Bool := false
  /-- The core executes: it has been released and woken, and is not handed over, seized or reset (01 R32, 11 R359). -/
  running : Bool := false
  /-- Its kernel ends: the core begins nothing further (11 R360, R361). -/
  stopping : Bool := false
  halted : Bool := false
  why : HaltWhy := 0
  /-- STEP is executing one instruction or entry (02 R86). -/
  stepping : Bool := false
  stall : Option Stall := none
  /-- Scalar registers that an engine will write (02 R72). -/
  pendingScalar : List R5 := []
  /-- Scalar results the engines have formed and not yet written. -/
  results : List (R5 × W64) := []
  /-- The core's copy of the vector type (04 R120): SEW, GRP, FPK. -/
  vsew : BitVec 2 := 3
  vgrp : BitVec 2 := 0
  vfpk : Bool := false
  /-- Instructions dispatched to the engines so far: program order of their entries (05 R178). The model's own counter. -/
  seq : Nat := 0
  deriving DecidableEq, Repr

/-! ## Engine queues -/

/-- A queue entry: the instruction with the scalar values it names in bits [18:14], [13:9] and [8:4], the level of its
dispatch, its address (02 R70, 03 R93, R107). -/
structure Entry where
  instr : EngInstr
  a : W64 := 0
  b : W64 := 0
  c : W64 := 0
  level : BitVec 2 := 2
  epc : BitVec 16 := 0
  seq : Nat := 0
  /-- The vector type in force when the entry entered the queue (04 R146). -/
  sew : BitVec 2 := 3
  grp : BitVec 2 := 0
  fpk : Bool := false
  deriving DecidableEq, Repr

/-- The lathe (04 R114, table 4.2). Vector register n holds bytes 4096 n to 4096 n + 4095 of `v` (R115); mask register k holds
bits 32768 k to 32768 k + 32767 of `m`. -/
structure Lathe where
  queue : List Entry := []
  frozen : Bool := false
  /-- Code of the cause that froze the queue last (03 R107, 11 R360). -/
  cause : Byte := 0
  v : Memory := []
  m : Sparse Bool := []
  vl : Nat := 0
  sew : BitVec 2 := 3
  grp : BitVec 2 := 0
  fpk : Bool := false
  vpi : Nat := 0
  fxrnd : BitVec 2 := 0
  fxsat : Bool := false
  frm : BitVec 2 := 0
  fflags : BitVec 5 := 0
  /-- What the head instruction waits for at element VPI (04 R146). -/
  wait : Option EngWait := none
  deriving DecidableEq, Repr

/-- An array operation stopped at a heat boundary (07 R228, R232): the place at which it resumes. -/
structure ArrayOp where
  entry : Entry
  wt : Bool := false
  sweep : Nat := 0
  heats : Nat := 0
  deriving DecidableEq, Repr

/-- A drain in the ladle, stopped at a row boundary or handing rows to carter 2b + 1 (07 R229, R223; 10 R328, R329). -/
structure LadleOp where
  entry : Entry
  rows : Nat := 0
  /-- The lowest row handed to the carter that has failed, and its cause (10 R329). -/
  failed : Option (Nat × Cause) := none
  /-- Row `rows` waits for the translation of its pages (10 R328). -/
  wait : Option EngWait := none
  /-- The residue mismatches that the rows of a drain with DK 2 meet (07 R234). -/
  mism : List Mismatch := []
  deriving DecidableEq, Repr

/-- The forge with its crucible and ladle (05-07). Plate A holds bytes 0 to 131,071 of `plates`, plate B the next 131,072
(05 R159). Tile t holds elements 8192 t to 8192 t + 8191 of `tiles` (07 R212). -/
structure Forge where
  queue : List Entry := []
  frozen : Bool := false
  /-- Code of the cause that froze the queue last (03 R107, 11 R360). -/
  cause : Byte := 0
  /-- Entries that the array, the plate loader and the ladle have accepted and not begun (05 R175). -/
  arrayNext : Option Entry := none
  loaderNext : Option Entry := none
  ladleNext : Option Entry := none
  /-- A PLOAD that has begun and starts again from its first row (05 R162), and whether a cause that it raised holds it. -/
  loader : Option Entry := none
  loaderHeld : Bool := false
  /-- The progress record's array part (07 R232): AV and its words. -/
  array : Option ArrayOp := none
  /-- The array is held by Arithmetic check, or stopped by quench or preemption (07 R235, CRU_STATUS.HELD). -/
  arrayHeld : Bool := false
  /-- The drain in the ladle. -/
  ladle : Option LadleOp := none
  /-- The drain is held: LV of the progress record is 1. -/
  ladleHeld : Bool := false
  plates : Memory := []
  /-- WE and PCL of plates A and B (05 R159). -/
  weA : BitVec 2 := 2
  pclA : BitVec 2 := 0
  weB : BitVec 2 := 2
  pclB : BitVec 2 := 0
  tiles : Sparse W32 := []
  /-- The residue stored with each tile element (07 R212), numbered as the elements are. -/
  residues : Sparse (BitVec 2) := []
  /-- The states of the 128 riddle lanes; empty: those that SEED with s = 0 gives (06 R204, R205). -/
  lanes : List W32 := []
  /-- CRU_RCHK_CFG.INJ: one residue mismatch is forced in the next heat (07). -/
  inject : Bool := false
  /-- Mismatch counts of physical rows 0-65 (07 R236). -/
  rowErr : Sparse Byte := []
  /-- Dross work runs on the bench, and its duty in eighths (15 R459). -/
  dross : Bool := false
  duty : Nat := 0
  /-- CYCLE when the last array operation ended, and whether the governor has granted IFORGE (15 table 15.4). -/
  lastArray : W64 := 0
  granted : Bool := false
  /-- The accepted spare request that awaits a quiescent point: spare 1, REL and ROW (05 R186). -/
  spare : Option (Bool × Bool × BitVec 6) := none
  deriving DecidableEq, Repr

/-! ## The bench -/

/-- A line of the scalar data cache (02 R57, 08 R240): 64 bytes by line address and kind of storage. -/
structure CacheLine where
  /-- 0: bench store offset; 1: DPA; 2: host bus address; 3 + peer: peer memory. -/
  space : Nat
  line : Nat
  data : List Byte
  deriving DecidableEq, Repr

/-- One bench. -/
structure Bench where
  /-- The job slot to which the foreman has assigned the bench (11 R358). -/
  slot : Option SlotId := none
  core : Core := {}
  lathe : Lathe := {}
  forge : Forge := {}
  /-- The 2 MiB bench store (02 R56). DESIGN CHOICE, log 4. -/
  store : Memory := []
  /-- 8-byte blocks of the bench store that read as poisoned (03 R98). -/
  storeBad : List Nat := []
  /-- The program store: 65,536 words (02 R60); a word never written is 0. -/
  ps : Sparse W36 := []
  psErr : Sparse PsMark := []
  /-- Blocks of 1,024 program-store words that have been written since they were marked unwritten (11 R359, R369). -/
  psBlocks : List Nat := []
  /-- The scalar data cache, newest line first, at most 512 lines (02 R57). -/
  dcache : List CacheLine := []
  /-- The armed bell watch (11 R348): bell, target and scope. -/
  watch : Option (BitVec 16 × W32 × BitVec 3) := none
  /-- The store mode in effect (08 R242): HMK_OSTn's bit as it stood when the bench was last free. -/
  openStore : Bool := false
  /-- The core has been handed over to the foreman for preemption (11 R368). -/
  handed : Bool := false
  /-- Excluded by self-test or the part record (17 R504). -/
  excluded : Bool := false
  deriving DecidableEq, Repr

end Sys2Proof.Machine
end

