-- ==== Sys2Proof/Machine/Regs.lean ====
section
/-! DEFINITION. The register map (16 R466, R467, table 16.1): every register of the manual with its address, its fields, their
type codes (00 table 0.3) and their reset values (00 R13). A register that stands once for each unit carries the unit's
number `u` and, inside the unit, a number `n`. -/

namespace Sys2Proof.Machine

/-- Type codes of register fields (00 R11, table 0.3). RWM/RWA and RWP/RWM do not occur. -/
inductive FieldType where
  | rw | ro | w1c | wo | rwm | rwp | rwa
  deriving DecidableEq, Repr

/-- A field: bits [hi:lo], its type and its reset value. Bits in no field are reserved (00 R12). -/
structure Field where
  hi : Nat
  lo : Nat
  type : FieldType
  reset : Nat
  deriving DecidableEq, Repr

/-- The registers of the manual, by name. -/
inductive RegKind where
  /-- BEN_DBG_CTL (chapter 02). -/
  | benDbgCtl
  /-- BEN_DBG_STATUS (chapter 02). -/
  | benDbgStatus
  /-- BEN_DBG_PC (chapter 02). -/
  | benDbgPc
  /-- BEN_DBG_SEL (chapter 02). -/
  | benDbgSel
  /-- BEN_DBG_DATA_LO (chapter 02). -/
  | benDbgDataLo
  /-- BEN_DBG_DATA_HI (chapter 02). -/
  | benDbgDataHi
  /-- BEN_BPn (chapter 02). -/
  | benBp
  /-- BEN_WPn_ADDR_LO and BEN_WPn_ADDR_HI (chapter 02). -/
  | benWpAddrLo
  /-- BEN_WPn_ADDR_LO and BEN_WPn_ADDR_HI (chapter 02). -/
  | benWpAddrHi
  /-- BEN_WPn_CFG (chapter 02). -/
  | benWpCfg
  /-- BEN_PGUARD (chapter 02). -/
  | benPguard
  /-- BEN_PS_ERR (chapter 02). -/
  | benPsErr
  /-- BEN_XDELEG (chapter 03). -/
  | benXdeleg
  /-- BEN_XJ_SP (chapter 03). -/
  | benXjSp
  /-- BEN_XJ_SL (chapter 03). -/
  | benXjSl
  /-- BEN_XJ_BASE (chapter 03). -/
  | benXjBase
  /-- BEN_SGUARD_M and BEN_SGUARD_J (chapter 03). -/
  | benSguardM
  /-- BEN_SGUARD_M and BEN_SGUARD_J (chapter 03). -/
  | benSguardJ
  /-- BEN_XCMP_LO and BEN_XCMP_HI (chapter 03). -/
  | benXcmpLo
  /-- BEN_XCMP_LO and BEN_XCMP_HI (chapter 03). -/
  | benXcmpHi
  /-- BEN_XSTAT (chapter 03). -/
  | benXstat
  /-- BEN_FENCE_TMO (chapter 08). -/
  | benFenceTmo
  /-- PROT of the sub-block (chapter 16). -/
  | benProt
  /-- PROT of the sub-block (chapter 16). -/
  | lthProt
  /-- FRG_STATUS (chapter 05). -/
  | frgStatus
  /-- FRG_SPARE_CTL (chapter 05). -/
  | frgSpareCtl
  /-- FRG_ROWMAP (chapter 05). -/
  | frgRowmap
  /-- FRG_PLATE_GEOM (chapter 05). -/
  | frgPlateGeom
  /-- PROT of the sub-block (chapter 16). -/
  | frgProt
  /-- CRU_STATUS (chapter 07). -/
  | cruStatus
  /-- CRU_RCHK_CFG (chapter 07). -/
  | cruRchkCfg
  /-- CRU_RCHK_STAT (chapter 07). -/
  | cruRchkStat
  /-- CRU_RCHK_FAIL (chapter 07). -/
  | cruRchkFail
  /-- CRU_ROWERR_SEL (chapter 07). -/
  | cruRowerrSel
  /-- CRU_ROWERR_CNT (chapter 07). -/
  | cruRowerrCnt
  /-- PROT of the sub-block (chapter 16). -/
  | cruProt
  /-- HMK_OSTn (chapter 08). -/
  | hmkOst
  /-- XLT_HCT_BASE_LO and XLT_HCT_BASE_HI (chapter 09). -/
  | xltHctBaseLo
  /-- XLT_HCT_BASE_LO and XLT_HCT_BASE_HI (chapter 09). -/
  | xltHctBaseHi
  /-- XLT_EPOCH (chapter 09). -/
  | xltEpoch
  /-- XLT_FQUOTA (chapter 09). -/
  | xltFquota
  /-- XLT_FTE_SEL (chapter 09). -/
  | xltFteSel
  /-- XLT_FTE_STAT (chapter 09). -/
  | xltFteStat
  /-- XLT_FRING_BASE_LO and XLT_FRING_BASE_HI (chapter 09). -/
  | xltFringBaseLo
  /-- XLT_FRING_BASE_LO and XLT_FRING_BASE_HI (chapter 09). -/
  | xltFringBaseHi
  /-- XLT_FRING_CFG (chapter 09). -/
  | xltFringCfg
  /-- XLT_FRING_HEAD (chapter 09). -/
  | xltFringHead
  /-- XLT_FRING_TAIL (chapter 09). -/
  | xltFringTail
  /-- HMK_LOT_SEL (chapter 09). -/
  | hmkLotSel
  /-- HMK_LOT_DATA (chapter 09). -/
  | hmkLotData
  /-- HMK_LOT_STAT (chapter 09). -/
  | hmkLotStat
  /-- HMK_DENY_STAT (chapter 09). -/
  | hmkDenyStat
  /-- HMK_DENY_LOT (chapter 09). -/
  | hmkDenyLot
  /-- CRT_RING_LO (chapter 10). -/
  | crtBRingLo
  /-- CRT_RING_HI (chapter 10). -/
  | crtBRingHi
  /-- CRT_RING_CFG (chapter 10). -/
  | crtBRingCfg
  /-- CRT_STATUS (chapter 10). -/
  | crtBStatus
  /-- CRT_CTL (chapter 10). -/
  | crtBCtl
  /-- CRT_RING_LO (chapter 10). -/
  | crtSRingLo
  /-- CRT_RING_HI (chapter 10). -/
  | crtSRingHi
  /-- CRT_RING_CFG (chapter 10). -/
  | crtSRingCfg
  /-- CRT_STATUS (chapter 10). -/
  | crtSStatus
  /-- CRT_CTL (chapter 10). -/
  | crtSCtl
  /-- CRT_RING_LO (chapter 10). -/
  | crtLRingLo
  /-- CRT_RING_HI (chapter 10). -/
  | crtLRingHi
  /-- CRT_RING_CFG (chapter 10). -/
  | crtLRingCfg
  /-- CRT_STATUS (chapter 10). -/
  | crtLStatus
  /-- CRT_CTL (chapter 10). -/
  | crtLCtl
  /-- CRT_TMO (chapter 10). -/
  | crtTmo
  /-- HOP_CFG (chapter 10). -/
  | hopCfg
  /-- HOP_OWN (chapter 10). -/
  | hopOwn
  /-- HOP_SPILL_LO and HOP_SPILL_HI (chapter 10). -/
  | hopSpillLo
  /-- HOP_SPILL_LO and HOP_SPILL_HI (chapter 10). -/
  | hopSpillHi
  /-- HOP_STATUS (chapter 10). -/
  | hopStatus
  /-- BEL_GRP_SEL (chapter 11). -/
  | belGrpSel
  /-- BEL_GRP_DATA (chapter 11). -/
  | belGrpData
  /-- BEL_CNT_SEL (chapter 11). -/
  | belCntSel
  /-- BEL_CNT (chapter 11). -/
  | belCnt
  /-- BEL_DENY (chapter 11). -/
  | belDeny
  /-- BEL_DENY_CNT (chapter 11). -/
  | belDenyCnt
  /-- FMN_CFG (chapter 11). -/
  | fmnCfg
  /-- FMN_SHIFT_CFG (chapter 11). -/
  | fmnShiftCfg
  /-- FMN_SHIFT_NUM (chapter 11). -/
  | fmnShiftNum
  /-- FMN_SLOTn_CTL (chapter 11). -/
  | fmnSlotCtl
  /-- FMN_SLOTn_STAT (chapter 11). -/
  | fmnSlotStat
  /-- FMN_SLOTn_IMG_LO and FMN_SLOTn_IMG_HI (chapter 11). -/
  | fmnSlotImgLo
  /-- FMN_SLOTn_IMG_LO and FMN_SLOTn_IMG_HI (chapter 11). -/
  | fmnSlotImgHi
  /-- FMN_SLOTn_NOTICE (chapter 11). -/
  | fmnSlotNotice
  /-- FMN_BENCHb_CTL (chapter 16). -/
  | fmnBenchCtl
  /-- FMN_BRESET (chapter 17). -/
  | fmnBreset
  /-- FMN_FWEND (chapter 17). -/
  | fmnFwend
  /-- PEX_FMAP (chapter 12). -/
  | pexFmap
  /-- PEX_LINK_CFG (chapter 12). -/
  | pexLinkCfg
  /-- PEX_LINKk_STAT (chapter 12). -/
  | pexLinkStat
  /-- PEX_AWINw_CFG (chapter 12). -/
  | pexAwinCfg
  /-- PEX_AWINw_OFF (chapter 12). -/
  | pexAwinOff
  /-- PEX_AWINw_LEN (chapter 12). -/
  | pexAwinLen
  /-- PEX_AWINw_LOT (chapter 12). -/
  | pexAwinLot
  /-- XLT_FRING_BASE_LO and XLT_FRING_BASE_HI (chapter 09). -/
  | pexEringBaseLo
  /-- XLT_FRING_BASE_LO and XLT_FRING_BASE_HI (chapter 09). -/
  | pexEringBaseHi
  /-- XLT_FRING_CFG (chapter 09). -/
  | pexEringCfg
  /-- XLT_FRING_HEAD (chapter 09). -/
  | pexEringHead
  /-- XLT_FRING_TAIL (chapter 09). -/
  | pexEringTail
  /-- PEX_FNf_CTL (chapter 16). -/
  | pexFnCtl
  /-- CTH_RINGn_BASE_LO and CTH_RINGn_BASE_HI (chapter 12). -/
  | cthRingBaseLo
  /-- CTH_RINGn_BASE_LO and CTH_RINGn_BASE_HI (chapter 12). -/
  | cthRingBaseHi
  /-- CTH_RINGn_CFG (chapter 12). -/
  | cthRingCfg
  /-- CTH_RINGn_CQ_LO and CTH_RINGn_CQ_HI (chapter 12). -/
  | cthRingCqLo
  /-- CTH_RINGn_CQ_LO and CTH_RINGn_CQ_HI (chapter 12). -/
  | cthRingCqHi
  /-- CTH_RINGn_CQCFG (chapter 12). -/
  | cthRingCqcfg
  /-- CTH_RINGn_FETCH and CTH_RINGn_CQTAIL (chapter 12). -/
  | cthRingFetch
  /-- CTH_RINGn_FETCH and CTH_RINGn_CQTAIL (chapter 12). -/
  | cthRingCqtail
  /-- ING_CFG (chapter 13). -/
  | ingCfg
  /-- ING_STATUS (chapter 13). -/
  | ingStatus
  /-- YRD_SPREAD (chapter 13). -/
  | yrdSpread
  /-- YRD_STATUS (chapter 13). -/
  | yrdStatus
  /-- YRD_GRPg_CFG (chapter 13). -/
  | yrdGrpCfg
  /-- YRD_GRPg_STAT (chapter 13). -/
  | yrdGrpStat
  /-- YRD_GRPg_FAIL (chapter 13). -/
  | yrdGrpFail
  /-- YRD_RETRAIN (chapter 13). -/
  | yrdRetrain
  /-- YRD_RELIEF_CTL (chapter 13). -/
  | yrdReliefCtl
  /-- YRD_RELIEF_STAT (chapter 13). -/
  | yrdReliefStat
  /-- YRD_MARGIN_CTL (chapter 13). -/
  | yrdMarginCtl
  /-- YRD_MARGIN_RES (chapter 13). -/
  | yrdMarginRes
  /-- DRY_ID (chapter 14). -/
  | dryId
  /-- DRY_E2E (chapter 14). -/
  | dryE2e
  /-- DRY_RT_SEL (chapter 14). -/
  | dryRtSel
  /-- DRY_RT_PRI and DRY_RT_ALT (chapter 14). -/
  | dryRtPri
  /-- DRY_RT_PRI and DRY_RT_ALT (chapter 14). -/
  | dryRtAlt
  /-- DRY_PORTp_CFG (chapter 14). -/
  | dryPortCfg
  /-- DRY_PORTp_STAT (chapter 14). -/
  | dryPortStat
  /-- ALY_CFG (chapter 14). -/
  | alyCfg
  /-- CRT_RING_LO (chapter 10). -/
  | alyQRingLo
  /-- CRT_RING_HI (chapter 10). -/
  | alyQRingHi
  /-- CRT_RING_CFG (chapter 10). -/
  | alyQRingCfg
  /-- CRT_STATUS (chapter 10). -/
  | alyQStatus
  /-- CLK_STATUS (chapter 15). -/
  | clkStatus
  /-- SHL_SENS_SEL (chapter 15). -/
  | shlSensSel
  /-- SHL_SENS_DATA (chapter 15). -/
  | shlSensData
  /-- SHL_FILT (chapter 15). -/
  | shlFilt
  /-- SHL_SHOPs_STAT (chapter 15). -/
  | shlShopStat
  /-- SHL_RULEn_LO (chapter 15). -/
  | shlRuleLo
  /-- SHL_RULEn_HI (chapter 15). -/
  | shlRuleHi
  /-- SHL_MARGINn (chapter 15). -/
  | shlMargin
  /-- SHL_TRIP (chapter 15). -/
  | shlTrip
  /-- PWR_CTL (chapter 15). -/
  | pwrCtl
  /-- PWR_STAT (chapter 15). -/
  | pwrStat
  /-- PWR_GOV (chapter 15). -/
  | pwrGov
  /-- PWR_LIMIT (chapter 15). -/
  | pwrLimit
  /-- MLD_POUR (chapter 16). -/
  | mldPour
  /-- MLD_STATUS (chapter 16). -/
  | mldStatus
  /-- SEC_IDENT (chapter 16). -/
  | secIdent
  /-- SEC_STATE (chapter 17). -/
  | secState
  /-- SEC_MBOX_ADDR_LO and SEC_MBOX_ADDR_HI (chapter 17). -/
  | secMboxAddrLo
  /-- SEC_MBOX_ADDR_LO and SEC_MBOX_ADDR_HI (chapter 17). -/
  | secMboxAddrHi
  /-- SEC_MBOX_CMD (chapter 17). -/
  | secMboxCmd
  /-- SEC_MBOX_STAT (chapter 17). -/
  | secMboxStat
  /-- <block>_PROT (chapter 16). -/
  | blkProt
  deriving DecidableEq, Repr

/-- Where a register stands: register-space offset `base + u * ustride + n * nstride` for u < ucount, n < ncount. -/
structure RegPlace where
  base : Nat
  ustride : Nat
  ucount : Nat
  nstride : Nat
  ncount : Nat
  deriving DecidableEq, Repr

/-- Addresses of the registers (16 table 16.1 and the register tables). -/
def RegKind.place : RegKind → RegPlace
  | .benDbgCtl => ⟨0x2000100, 0x10000, 256, 0x0, 1⟩
  | .benDbgStatus => ⟨0x2000104, 0x10000, 256, 0x0, 1⟩
  | .benDbgPc => ⟨0x2000108, 0x10000, 256, 0x0, 1⟩
  | .benDbgSel => ⟨0x200010c, 0x10000, 256, 0x0, 1⟩
  | .benDbgDataLo => ⟨0x2000110, 0x10000, 256, 0x0, 1⟩
  | .benDbgDataHi => ⟨0x2000114, 0x10000, 256, 0x0, 1⟩
  | .benBp => ⟨0x2000130, 0x10000, 256, 0x4, 4⟩
  | .benWpAddrLo => ⟨0x2000140, 0x10000, 256, 0x10, 2⟩
  | .benWpAddrHi => ⟨0x2000144, 0x10000, 256, 0x10, 2⟩
  | .benWpCfg => ⟨0x2000148, 0x10000, 256, 0x10, 2⟩
  | .benPguard => ⟨0x2000180, 0x10000, 256, 0x0, 1⟩
  | .benPsErr => ⟨0x2000184, 0x10000, 256, 0x0, 1⟩
  | .benXdeleg => ⟨0x2000200, 0x10000, 256, 0x0, 1⟩
  | .benXjSp => ⟨0x2000210, 0x10000, 256, 0x0, 1⟩
  | .benXjSl => ⟨0x2000214, 0x10000, 256, 0x0, 1⟩
  | .benXjBase => ⟨0x2000218, 0x10000, 256, 0x0, 1⟩
  | .benSguardM => ⟨0x2000220, 0x10000, 256, 0x0, 1⟩
  | .benSguardJ => ⟨0x2000224, 0x10000, 256, 0x0, 1⟩
  | .benXcmpLo => ⟨0x2000230, 0x10000, 256, 0x0, 1⟩
  | .benXcmpHi => ⟨0x2000234, 0x10000, 256, 0x0, 1⟩
  | .benXstat => ⟨0x2000240, 0x10000, 256, 0x0, 1⟩
  | .benFenceTmo => ⟨0x2000300, 0x10000, 256, 0x0, 1⟩
  | .benProt => ⟨0x2003ffc, 0x10000, 256, 0x0, 1⟩
  | .lthProt => ⟨0x2007ffc, 0x10000, 256, 0x0, 1⟩
  | .frgStatus => ⟨0x2008000, 0x10000, 256, 0x0, 1⟩
  | .frgSpareCtl => ⟨0x2008010, 0x10000, 256, 0x0, 1⟩
  | .frgRowmap => ⟨0x2008014, 0x10000, 256, 0x0, 1⟩
  | .frgPlateGeom => ⟨0x2008020, 0x10000, 256, 0x0, 1⟩
  | .frgProt => ⟨0x200bffc, 0x10000, 256, 0x0, 1⟩
  | .cruStatus => ⟨0x200c000, 0x10000, 256, 0x0, 1⟩
  | .cruRchkCfg => ⟨0x200c010, 0x10000, 256, 0x0, 1⟩
  | .cruRchkStat => ⟨0x200c014, 0x10000, 256, 0x0, 1⟩
  | .cruRchkFail => ⟨0x200c018, 0x10000, 256, 0x0, 1⟩
  | .cruRowerrSel => ⟨0x200c020, 0x10000, 256, 0x0, 1⟩
  | .cruRowerrCnt => ⟨0x200c024, 0x10000, 256, 0x0, 1⟩
  | .cruProt => ⟨0x200fffc, 0x10000, 256, 0x0, 1⟩
  | .hmkOst => ⟨0xa00400, 0x0, 1, 0x4, 8⟩
  | .xltHctBaseLo => ⟨0x900000, 0x0, 1, 0x0, 1⟩
  | .xltHctBaseHi => ⟨0x900004, 0x0, 1, 0x0, 1⟩
  | .xltEpoch => ⟨0x900010, 0x0, 1, 0x0, 1⟩
  | .xltFquota => ⟨0x900014, 0x0, 1, 0x0, 1⟩
  | .xltFteSel => ⟨0x900020, 0x0, 1, 0x0, 1⟩
  | .xltFteStat => ⟨0x900024, 0x0, 1, 0x0, 1⟩
  | .xltFringBaseLo => ⟨0x901000, 0x20, 64, 0x0, 1⟩
  | .xltFringBaseHi => ⟨0x901004, 0x20, 64, 0x0, 1⟩
  | .xltFringCfg => ⟨0x901008, 0x20, 64, 0x0, 1⟩
  | .xltFringHead => ⟨0x90100c, 0x20, 64, 0x0, 1⟩
  | .xltFringTail => ⟨0x901010, 0x20, 64, 0x0, 1⟩
  | .hmkLotSel => ⟨0xa00000, 0x0, 1, 0x0, 1⟩
  | .hmkLotData => ⟨0xa00004, 0x0, 1, 0x0, 1⟩
  | .hmkLotStat => ⟨0xa00008, 0x0, 1, 0x0, 1⟩
  | .hmkDenyStat => ⟨0xa00010, 0x0, 1, 0x0, 1⟩
  | .hmkDenyLot => ⟨0xa00014, 0x0, 1, 0x0, 1⟩
  | .crtBRingLo => ⟨0xb00000, 0x40, 512, 0x0, 1⟩
  | .crtBRingHi => ⟨0xb00004, 0x40, 512, 0x0, 1⟩
  | .crtBRingCfg => ⟨0xb00008, 0x40, 512, 0x0, 1⟩
  | .crtBStatus => ⟨0xb0000c, 0x40, 512, 0x0, 1⟩
  | .crtBCtl => ⟨0xb00010, 0x40, 512, 0x0, 1⟩
  | .crtSRingLo => ⟨0xb08000, 0x40, 32, 0x0, 1⟩
  | .crtSRingHi => ⟨0xb08004, 0x40, 32, 0x0, 1⟩
  | .crtSRingCfg => ⟨0xb08008, 0x40, 32, 0x0, 1⟩
  | .crtSStatus => ⟨0xb0800c, 0x40, 32, 0x0, 1⟩
  | .crtSCtl => ⟨0xb08010, 0x40, 32, 0x0, 1⟩
  | .crtLRingLo => ⟨0xb08800, 0x40, 16, 0x0, 1⟩
  | .crtLRingHi => ⟨0xb08804, 0x40, 16, 0x0, 1⟩
  | .crtLRingCfg => ⟨0xb08808, 0x40, 16, 0x0, 1⟩
  | .crtLStatus => ⟨0xb0880c, 0x40, 16, 0x0, 1⟩
  | .crtLCtl => ⟨0xb08810, 0x40, 16, 0x0, 1⟩
  | .crtTmo => ⟨0xb09000, 0x0, 1, 0x0, 1⟩
  | .hopCfg => ⟨0xc00000, 0x20, 1024, 0x0, 1⟩
  | .hopOwn => ⟨0xc00004, 0x20, 1024, 0x0, 1⟩
  | .hopSpillLo => ⟨0xc00008, 0x20, 1024, 0x0, 1⟩
  | .hopSpillHi => ⟨0xc0000c, 0x20, 1024, 0x0, 1⟩
  | .hopStatus => ⟨0xc00010, 0x20, 1024, 0x0, 1⟩
  | .belGrpSel => ⟨0x800000, 0x0, 1, 0x0, 1⟩
  | .belGrpData => ⟨0x800004, 0x0, 1, 0x0, 1⟩
  | .belCntSel => ⟨0x800010, 0x0, 1, 0x0, 1⟩
  | .belCnt => ⟨0x800014, 0x0, 1, 0x0, 1⟩
  | .belDeny => ⟨0x800020, 0x0, 1, 0x0, 1⟩
  | .belDenyCnt => ⟨0x800024, 0x0, 1, 0x0, 1⟩
  | .fmnCfg => ⟨0x700000, 0x0, 1, 0x0, 1⟩
  | .fmnShiftCfg => ⟨0x700010, 0x0, 1, 0x0, 1⟩
  | .fmnShiftNum => ⟨0x700014, 0x0, 1, 0x0, 1⟩
  | .fmnSlotCtl => ⟨0x700100, 0x20, 64, 0x0, 1⟩
  | .fmnSlotStat => ⟨0x700104, 0x20, 64, 0x0, 1⟩
  | .fmnSlotImgLo => ⟨0x700108, 0x20, 64, 0x0, 1⟩
  | .fmnSlotImgHi => ⟨0x70010c, 0x20, 64, 0x0, 1⟩
  | .fmnSlotNotice => ⟨0x700110, 0x20, 64, 0x0, 1⟩
  | .fmnBenchCtl => ⟨0x701000, 0x4, 256, 0x0, 1⟩
  | .fmnBreset => ⟨0x701400, 0x0, 1, 0x0, 1⟩
  | .fmnFwend => ⟨0x701408, 0x0, 1, 0x0, 1⟩
  | .pexFmap => ⟨0x500000, 0x0, 1, 0x0, 1⟩
  | .pexLinkCfg => ⟨0x500004, 0x0, 1, 0x0, 1⟩
  | .pexLinkStat => ⟨0x500010, 0x4, 4, 0x0, 1⟩
  | .pexAwinCfg => ⟨0x500100, 0x10, 64, 0x0, 1⟩
  | .pexAwinOff => ⟨0x500104, 0x10, 64, 0x0, 1⟩
  | .pexAwinLen => ⟨0x500108, 0x10, 64, 0x0, 1⟩
  | .pexAwinLot => ⟨0x50010c, 0x10, 64, 0x0, 1⟩
  | .pexEringBaseLo => ⟨0x500800, 0x20, 64, 0x0, 1⟩
  | .pexEringBaseHi => ⟨0x500804, 0x20, 64, 0x0, 1⟩
  | .pexEringCfg => ⟨0x500808, 0x20, 64, 0x0, 1⟩
  | .pexEringHead => ⟨0x50080c, 0x20, 64, 0x0, 1⟩
  | .pexEringTail => ⟨0x500810, 0x20, 64, 0x0, 1⟩
  | .pexFnCtl => ⟨0x502000, 0x4, 64, 0x0, 1⟩
  | .cthRingBaseLo => ⟨0x610000, 0x20, 4096, 0x0, 1⟩
  | .cthRingBaseHi => ⟨0x610004, 0x20, 4096, 0x0, 1⟩
  | .cthRingCfg => ⟨0x610008, 0x20, 4096, 0x0, 1⟩
  | .cthRingCqLo => ⟨0x61000c, 0x20, 4096, 0x0, 1⟩
  | .cthRingCqHi => ⟨0x610010, 0x20, 4096, 0x0, 1⟩
  | .cthRingCqcfg => ⟨0x610014, 0x20, 4096, 0x0, 1⟩
  | .cthRingFetch => ⟨0x610018, 0x20, 4096, 0x0, 1⟩
  | .cthRingCqtail => ⟨0x61001c, 0x20, 4096, 0x0, 1⟩
  | .ingCfg => ⟨0xd00000, 0x0, 1, 0x0, 1⟩
  | .ingStatus => ⟨0xd00004, 0x0, 1, 0x0, 1⟩
  | .yrdSpread => ⟨0xe00000, 0x0, 1, 0x0, 1⟩
  | .yrdStatus => ⟨0xe00004, 0x0, 1, 0x0, 1⟩
  | .yrdGrpCfg => ⟨0xe00100, 0x20, 8, 0x0, 1⟩
  | .yrdGrpStat => ⟨0xe00104, 0x20, 8, 0x0, 1⟩
  | .yrdGrpFail => ⟨0xe00108, 0x20, 8, 0x0, 1⟩
  | .yrdRetrain => ⟨0xe00008, 0x0, 1, 0x0, 1⟩
  | .yrdReliefCtl => ⟨0xe00010, 0x0, 1, 0x0, 1⟩
  | .yrdReliefStat => ⟨0xe00014, 0x0, 1, 0x0, 1⟩
  | .yrdMarginCtl => ⟨0xe00020, 0x0, 1, 0x0, 1⟩
  | .yrdMarginRes => ⟨0xe00024, 0x0, 1, 0x0, 1⟩
  | .dryId => ⟨0xf00000, 0x0, 1, 0x0, 1⟩
  | .dryE2e => ⟨0xf00004, 0x0, 1, 0x0, 1⟩
  | .dryRtSel => ⟨0xf00010, 0x0, 1, 0x0, 1⟩
  | .dryRtPri => ⟨0xf00014, 0x0, 1, 0x0, 1⟩
  | .dryRtAlt => ⟨0xf00018, 0x0, 1, 0x0, 1⟩
  | .dryPortCfg => ⟨0xf00100, 0x10, 12, 0x0, 1⟩
  | .dryPortStat => ⟨0xf00104, 0x10, 12, 0x0, 1⟩
  | .alyCfg => ⟨0x1000000, 0x0, 1, 0x0, 1⟩
  | .alyQRingLo => ⟨0x1000100, 0x40, 4, 0x0, 1⟩
  | .alyQRingHi => ⟨0x1000104, 0x40, 4, 0x0, 1⟩
  | .alyQRingCfg => ⟨0x1000108, 0x40, 4, 0x0, 1⟩
  | .alyQStatus => ⟨0x100010c, 0x40, 4, 0x0, 1⟩
  | .clkStatus => ⟨0x200000, 0x0, 1, 0x0, 1⟩
  | .shlSensSel => ⟨0x400000, 0x0, 1, 0x0, 1⟩
  | .shlSensData => ⟨0x400004, 0x0, 1, 0x0, 1⟩
  | .shlFilt => ⟨0x400010, 0x0, 1, 0x0, 1⟩
  | .shlShopStat => ⟨0x400100, 0x4, 16, 0x0, 1⟩
  | .shlRuleLo => ⟨0x400200, 0x8, 64, 0x0, 1⟩
  | .shlRuleHi => ⟨0x400204, 0x8, 64, 0x0, 1⟩
  | .shlMargin => ⟨0x400400, 0x4, 16, 0x0, 1⟩
  | .shlTrip => ⟨0x400020, 0x0, 1, 0x0, 1⟩
  | .pwrCtl => ⟨0x300000, 0x0, 1, 0x0, 1⟩
  | .pwrStat => ⟨0x300004, 0x0, 1, 0x0, 1⟩
  | .pwrGov => ⟨0x300010, 0x0, 1, 0x0, 1⟩
  | .pwrLimit => ⟨0x300014, 0x0, 1, 0x0, 1⟩
  | .mldPour => ⟨0x0, 0x0, 1, 0x0, 1⟩
  | .mldStatus => ⟨0x4, 0x0, 1, 0x0, 1⟩
  | .secIdent => ⟨0x100000, 0x0, 1, 0x0, 1⟩
  | .secState => ⟨0x100010, 0x0, 1, 0x0, 1⟩
  | .secMboxAddrLo => ⟨0x100020, 0x0, 1, 0x0, 1⟩
  | .secMboxAddrHi => ⟨0x100024, 0x0, 1, 0x0, 1⟩
  | .secMboxCmd => ⟨0x100028, 0x0, 1, 0x0, 1⟩
  | .secMboxStat => ⟨0x10002c, 0x0, 1, 0x0, 1⟩
  | .blkProt => ⟨0xffffc, 0x100000, 17, 0x0, 1⟩

/-- Fields of the registers, most significant first. -/
def RegKind.fields : RegKind → List Field
  | .benDbgCtl => [⟨11, 8, .rw, 0x0⟩, ⟨7, 6, .rw, 0x0⟩, ⟨5, 5, .rw, 0x0⟩, ⟨4, 4, .rw, 0x0⟩, ⟨1, 1, .wo, 0x0⟩, ⟨0, 0, .rw, 0x0⟩]
  | .benDbgStatus => [⟨7, 4, .ro, 0x0⟩, ⟨3, 3, .ro, 0x1⟩, ⟨2, 2, .ro, 0x1⟩, ⟨1, 1, .ro, 0x0⟩, ⟨0, 0, .ro, 0x0⟩]
  | .benDbgPc => [⟨15, 0, .ro, 0x0⟩]
  | .benDbgSel => [⟨8, 8, .rw, 0x0⟩, ⟨7, 0, .rw, 0x0⟩]
  | .benDbgDataLo => [⟨31, 0, .rw, 0x0⟩]
  | .benDbgDataHi => [⟨31, 0, .rw, 0x0⟩]
  | .benBp => [⟨15, 0, .rw, 0x0⟩]
  | .benWpAddrLo => [⟨31, 0, .rw, 0x0⟩]
  | .benWpAddrHi => [⟨31, 0, .rw, 0x0⟩]
  | .benWpCfg => [⟨13, 8, .rw, 0x0⟩, ⟨2, 2, .rw, 0x0⟩, ⟨1, 1, .rw, 0x0⟩, ⟨0, 0, .rw, 0x0⟩]
  | .benPguard => [⟨31, 16, .rw, 0x0⟩, ⟨15, 0, .rw, 0x0⟩]
  | .benPsErr => [⟨31, 31, .w1c, 0x0⟩, ⟨15, 0, .ro, 0x0⟩]
  | .benXdeleg => [⟨19, 17, .rw, 0x0⟩, ⟨12, 9, .rw, 0x0⟩, ⟨6, 1, .rw, 0x0⟩]
  | .benXjSp => [⟨21, 0, .rw, 0x0⟩]
  | .benXjSl => [⟨21, 0, .rw, 0x0⟩]
  | .benXjBase => [⟨15, 0, .rw, 0x0⟩]
  | .benSguardM => [⟨25, 16, .rw, 0x0⟩, ⟨8, 0, .rw, 0x0⟩]
  | .benSguardJ => [⟨25, 16, .rw, 0x0⟩, ⟨8, 0, .rw, 0x0⟩]
  | .benXcmpLo => [⟨31, 0, .rw, 0xffffffff⟩]
  | .benXcmpHi => [⟨31, 0, .rw, 0xffffffff⟩]
  | .benXstat => [⟨31, 31, .ro, 0x0⟩, ⟨23, 16, .ro, 0x0⟩, ⟨15, 0, .ro, 0x0⟩]
  | .benFenceTmo => [⟨7, 0, .rw, 0x10⟩]
  | .benProt => [⟨31, 16, .ro, 0x0⟩, ⟨1, 1, .w1c, 0x0⟩, ⟨0, 0, .rwa, 0x0⟩]
  | .lthProt => [⟨31, 16, .ro, 0x0⟩, ⟨1, 1, .w1c, 0x0⟩, ⟨0, 0, .rwa, 0x0⟩]
  | .frgStatus => [⟨23, 16, .ro, 0x10⟩, ⟨11, 10, .ro, 0x0⟩, ⟨9, 9, .ro, 0x0⟩, ⟨8, 8, .ro, 0x1⟩, ⟨4, 0, .ro, 0x0⟩]
  | .frgSpareCtl => [⟨31, 31, .wo, 0x0⟩, ⟨30, 30, .ro, 0x0⟩, ⟨29, 29, .w1c, 0x0⟩, ⟨15, 15, .rw, 0x0⟩, ⟨14, 14, .rw, 0x0⟩, ⟨5, 0, .rw, 0x0⟩]
  | .frgRowmap => [⟨31, 31, .ro, 0x0⟩, ⟨30, 30, .rw, 0x0⟩, ⟨29, 24, .ro, 0x0⟩, ⟨15, 15, .ro, 0x0⟩, ⟨14, 14, .rw, 0x0⟩, ⟨13, 8, .ro, 0x0⟩]
  | .frgPlateGeom => [⟨7, 6, .ro, 0x0⟩, ⟨5, 4, .ro, 0x2⟩, ⟨3, 2, .ro, 0x0⟩, ⟨1, 0, .ro, 0x2⟩]
  | .frgProt => [⟨31, 16, .ro, 0x0⟩, ⟨1, 1, .w1c, 0x0⟩, ⟨0, 0, .rwa, 0x0⟩]
  | .cruStatus => [⟨22, 16, .ro, 0x0⟩, ⟨3, 3, .ro, 0x0⟩, ⟨2, 2, .ro, 0x0⟩, ⟨1, 1, .ro, 0x0⟩, ⟨0, 0, .ro, 0x0⟩]
  | .cruRchkCfg => [⟨31, 31, .wo, 0x0⟩, ⟨7, 0, .rw, 0x10⟩]
  | .cruRchkStat => [⟨31, 16, .ro, 0x0⟩, ⟨15, 0, .ro, 0x0⟩]
  | .cruRchkFail => [⟨15, 8, .ro, 0x0⟩, ⟨7, 7, .w1c, 0x0⟩, ⟨6, 0, .ro, 0x0⟩]
  | .cruRowerrSel => [⟨6, 0, .rw, 0x0⟩]
  | .cruRowerrCnt => [⟨8, 8, .wo, 0x0⟩, ⟨7, 0, .ro, 0x0⟩]
  | .cruProt => [⟨31, 16, .ro, 0x0⟩, ⟨1, 1, .w1c, 0x0⟩, ⟨0, 0, .rwa, 0x0⟩]
  | .hmkOst => [⟨31, 0, .rwm, 0x0⟩]
  | .xltHctBaseLo => [⟨31, 17, .rwm, 0x0⟩]
  | .xltHctBaseHi => [⟨15, 0, .rwm, 0x0⟩]
  | .xltEpoch => [⟨31, 0, .ro, 0x0⟩]
  | .xltFquota => [⟨16, 8, .rw, 0x8⟩, ⟨7, 0, .rw, 0xff⟩]
  | .xltFteSel => [⟨7, 0, .rw, 0x0⟩]
  | .xltFteStat => [⟨31, 31, .ro, 0x0⟩, ⟨23, 16, .ro, 0x0⟩, ⟨15, 8, .ro, 0x0⟩, ⟨7, 0, .ro, 0x0⟩]
  | .xltFringBaseLo => [⟨31, 12, .rw, 0x0⟩]
  | .xltFringBaseHi => [⟨19, 0, .rw, 0x0⟩]
  | .xltFringCfg => [⟨31, 31, .rw, 0x0⟩, ⟨30, 30, .rw, 0x0⟩, ⟨19, 16, .rw, 0x4⟩, ⟨10, 0, .rw, 0x0⟩]
  | .xltFringHead => [⟨31, 0, .rw, 0x0⟩]
  | .xltFringTail => [⟨31, 0, .ro, 0x0⟩]
  | .hmkLotSel => [⟨26, 0, .rw, 0x0⟩]
  | .hmkLotData => [⟨31, 31, .rwp, 0x0⟩, ⟨30, 30, .rwp, 0x0⟩, ⟨29, 29, .rwp, 0x0⟩, ⟨28, 28, .rwp, 0x0⟩, ⟨27, 24, .rwp, 0x0⟩, ⟨11, 0, .rwp, 0x0⟩]
  | .hmkLotStat => [⟨0, 0, .ro, 0x0⟩]
  | .hmkDenyStat => [⟨31, 31, .w1c, 0x0⟩, ⟨27, 16, .ro, 0x0⟩, ⟨11, 0, .ro, 0x0⟩]
  | .hmkDenyLot => [⟨31, 31, .ro, 0x0⟩, ⟨26, 0, .ro, 0x0⟩]
  | .crtBRingLo => [⟨31, 7, .rw, 0x0⟩]
  | .crtBRingHi => [⟨19, 0, .rw, 0x0⟩]
  | .crtBRingCfg => [⟨31, 31, .rw, 0x0⟩, ⟨19, 16, .rw, 0x4⟩, ⟨15, 0, .rw, 0x0⟩]
  | .crtBStatus => [⟨31, 31, .ro, 0x0⟩, ⟨30, 30, .ro, 0x0⟩, ⟨29, 29, .ro, 0x1⟩, ⟨28, 28, .ro, 0x0⟩, ⟨27, 27, .ro, 0x0⟩, ⟨26, 26, .ro, 0x0⟩, ⟨25, 25, .ro, 0x0⟩, ⟨24, 24, .ro, 0x0⟩, ⟨9, 0, .ro, 0x0⟩]
  | .crtBCtl => [⟨31, 31, .rw, 0x1⟩]
  | .crtSRingLo => [⟨31, 7, .rw, 0x0⟩]
  | .crtSRingHi => [⟨19, 0, .rw, 0x0⟩]
  | .crtSRingCfg => [⟨31, 31, .rw, 0x0⟩, ⟨19, 16, .rw, 0x4⟩, ⟨15, 0, .rw, 0x0⟩]
  | .crtSStatus => [⟨31, 31, .ro, 0x0⟩, ⟨30, 30, .ro, 0x0⟩, ⟨29, 29, .ro, 0x1⟩, ⟨28, 28, .ro, 0x0⟩, ⟨27, 27, .ro, 0x0⟩, ⟨26, 26, .ro, 0x0⟩, ⟨25, 25, .ro, 0x0⟩, ⟨24, 24, .ro, 0x0⟩, ⟨9, 0, .ro, 0x0⟩]
  | .crtSCtl => [⟨31, 31, .rw, 0x1⟩]
  | .crtLRingLo => [⟨31, 7, .rw, 0x0⟩]
  | .crtLRingHi => [⟨19, 0, .rw, 0x0⟩]
  | .crtLRingCfg => [⟨31, 31, .rw, 0x0⟩, ⟨19, 16, .rw, 0x4⟩, ⟨15, 0, .rw, 0x0⟩]
  | .crtLStatus => [⟨31, 31, .ro, 0x0⟩, ⟨30, 30, .ro, 0x0⟩, ⟨29, 29, .ro, 0x1⟩, ⟨28, 28, .ro, 0x0⟩, ⟨27, 27, .ro, 0x0⟩, ⟨26, 26, .ro, 0x0⟩, ⟨25, 25, .ro, 0x0⟩, ⟨24, 24, .ro, 0x0⟩, ⟨9, 0, .ro, 0x0⟩]
  | .crtLCtl => [⟨31, 31, .rw, 0x1⟩]
  | .crtTmo => [⟨7, 0, .rw, 0x10⟩]
  | .hopCfg => [⟨31, 31, .rw, 0x0⟩, ⟨30, 30, .rw, 0x0⟩, ⟨29, 29, .rw, 0x1⟩, ⟨28, 28, .rw, 0x0⟩, ⟨27, 27, .rw, 0x0⟩, ⟨24, 20, .rw, 0x5⟩, ⟨19, 8, .rw, 0xfff⟩, ⟨7, 0, .rw, 0x10⟩]
  | .hopOwn => [⟨31, 16, .rw, 0x0⟩, ⟨11, 0, .rw, 0x0⟩]
  | .hopSpillLo => [⟨31, 12, .rw, 0x0⟩]
  | .hopSpillHi => [⟨15, 0, .rw, 0x0⟩]
  | .hopStatus => [⟨31, 31, .ro, 0x0⟩, ⟨30, 30, .ro, 0x0⟩, ⟨29, 29, .ro, 0x0⟩, ⟨28, 28, .ro, 0x0⟩, ⟨24, 0, .ro, 0x0⟩]
  | .belGrpSel => [⟨9, 0, .rw, 0x0⟩]
  | .belGrpData => [⟨31, 31, .rw, 0x0⟩, ⟨30, 30, .rw, 0x0⟩, ⟨11, 0, .rw, 0x0⟩]
  | .belCntSel => [⟨15, 0, .rw, 0x0⟩]
  | .belCnt => [⟨31, 0, .rw, 0x0⟩]
  | .belDeny => [⟨31, 31, .w1c, 0x0⟩, ⟨27, 16, .ro, 0x0⟩, ⟨15, 0, .ro, 0x0⟩]
  | .belDenyCnt => [⟨15, 0, .ro, 0x0⟩]
  | .fmnCfg => [⟨31, 31, .rw, 0x0⟩]
  | .fmnShiftCfg => [⟨31, 30, .rw, 0x0⟩, ⟨23, 0, .rw, 0x4000⟩]
  | .fmnShiftNum => [⟨31, 0, .ro, 0x0⟩]
  | .fmnSlotCtl => [⟨31, 31, .wo, 0x0⟩, ⟨30, 30, .wo, 0x0⟩, ⟨29, 29, .wo, 0x0⟩, ⟨28, 28, .wo, 0x0⟩]
  | .fmnSlotStat => [⟨31, 28, .ro, 0x0⟩, ⟨27, 24, .ro, 0x0⟩, ⟨23, 12, .ro, 0x0⟩, ⟨11, 0, .ro, 0x0⟩]
  | .fmnSlotImgLo => [⟨31, 22, .rw, 0x0⟩]
  | .fmnSlotImgHi => [⟨15, 0, .rw, 0x0⟩]
  | .fmnSlotNotice => [⟨31, 0, .rw, 0x0⟩]
  | .fmnBenchCtl => [⟨31, 31, .rw, 0x1⟩, ⟨30, 30, .ro, 0x0⟩, ⟨29, 29, .ro, 0x0⟩, ⟨28, 28, .ro, 0x1⟩]
  | .fmnBreset => [⟨31, 31, .wo, 0x0⟩, ⟨30, 30, .ro, 0x0⟩, ⟨29, 29, .w1c, 0x0⟩, ⟨28, 28, .w1c, 0x0⟩, ⟨27, 27, .ro, 0x0⟩, ⟨7, 0, .rw, 0x0⟩]
  | .fmnFwend => [⟨15, 0, .ro, 0x0⟩]
  | .pexFmap => [⟨31, 31, .rw, 0x0⟩, ⟨25, 24, .rw, 0x2⟩, ⟨22, 16, .rw, 0x40⟩, ⟨14, 8, .rw, 0x40⟩, ⟨6, 0, .rw, 0x40⟩]
  | .pexLinkCfg => [⟨31, 31, .rw, 0x0⟩, ⟨7, 0, .rw, 0x72⟩]
  | .pexLinkStat => [⟨31, 31, .ro, 0x0⟩, ⟨30, 30, .ro, 0x0⟩, ⟨29, 27, .ro, 0x0⟩, ⟨26, 22, .ro, 0x0⟩, ⟨15, 0, .ro, 0x0⟩]
  | .pexAwinCfg => [⟨31, 31, .rwm, 0x0⟩, ⟨30, 30, .rwm, 0x0⟩, ⟨29, 29, .rwm, 0x0⟩, ⟨27, 16, .rwm, 0x0⟩, ⟨15, 0, .rwm, 0x0⟩]
  | .pexAwinOff => [⟨31, 30, .rwm, 0x0⟩, ⟨17, 0, .rwm, 0x0⟩]
  | .pexAwinLen => [⟨17, 0, .rwm, 0x0⟩]
  | .pexAwinLot => [⟨26, 0, .rwm, 0x0⟩]
  | .pexEringBaseLo => [⟨31, 12, .rw, 0x0⟩]
  | .pexEringBaseHi => [⟨19, 0, .rw, 0x0⟩]
  | .pexEringCfg => [⟨31, 31, .rw, 0x0⟩, ⟨30, 30, .rw, 0x0⟩, ⟨19, 16, .rw, 0x4⟩, ⟨10, 0, .rw, 0x0⟩]
  | .pexEringHead => [⟨31, 0, .rw, 0x0⟩]
  | .pexEringTail => [⟨31, 0, .ro, 0x0⟩]
  | .pexFnCtl => [⟨31, 31, .rw, 0x1⟩, ⟨30, 30, .ro, 0x0⟩, ⟨29, 29, .ro, 0x0⟩, ⟨28, 28, .ro, 0x1⟩]
  | .cthRingBaseLo => [⟨31, 8, .rw, 0x0⟩]
  | .cthRingBaseHi => [⟨19, 0, .rw, 0x0⟩]
  | .cthRingCfg => [⟨31, 31, .rw, 0x0⟩, ⟨30, 30, .ro, 0x0⟩, ⟨29, 24, .rw, 0x0⟩, ⟨23, 20, .rw, 0x4⟩, ⟨19, 19, .ro, 0x0⟩, ⟨18, 18, .wo, 0x0⟩, ⟨11, 0, .rw, 0x0⟩]
  | .cthRingCqLo => [⟨31, 8, .rw, 0x0⟩]
  | .cthRingCqHi => [⟨19, 0, .rw, 0x0⟩]
  | .cthRingCqcfg => [⟨19, 16, .rw, 0x4⟩, ⟨10, 0, .rw, 0x0⟩]
  | .cthRingFetch => [⟨31, 0, .ro, 0x0⟩]
  | .cthRingCqtail => [⟨31, 0, .ro, 0x0⟩]
  | .ingCfg => [⟨31, 26, .rwm, 0x0⟩, ⟨25, 16, .rw, 0x10⟩, ⟨15, 8, .rw, 0x40⟩, ⟨7, 0, .rw, 0x10⟩]
  | .ingStatus => [⟨31, 31, .w1c, 0x0⟩, ⟨15, 0, .ro, 0x0⟩]
  | .yrdSpread => [⟨31, 24, .rwm, 0x0⟩, ⟨6, 0, .rwm, 0x0⟩]
  | .yrdStatus => [⟨31, 31, .w1c, 0x0⟩, ⟨7, 0, .ro, 0x0⟩]
  | .yrdGrpCfg => [⟨31, 31, .rwm, 0x0⟩, ⟨30, 30, .rwm, 0x0⟩, ⟨29, 29, .rwm, 0x0⟩, ⟨28, 28, .rwm, 0x0⟩, ⟨27, 26, .rwm, 0x0⟩, ⟨25, 23, .rwm, 0x0⟩, ⟨15, 8, .rw, 0x40⟩, ⟨7, 0, .rw, 0x10⟩]
  | .yrdGrpStat => [⟨31, 30, .ro, 0x0⟩, ⟨29, 26, .ro, 0x0⟩, ⟨25, 25, .ro, 0x0⟩, ⟨24, 19, .ro, 0x0⟩]
  | .yrdGrpFail => [⟨31, 0, .ro, 0x0⟩]
  | .yrdRetrain => [⟨31, 16, .rw, 0x400⟩, ⟨5, 0, .rw, 0x4⟩]
  | .yrdReliefCtl => [⟨31, 31, .wo, 0x0⟩, ⟨30, 30, .ro, 0x0⟩, ⟨29, 29, .w1c, 0x0⟩, ⟨18, 16, .rw, 0x0⟩, ⟨12, 8, .rw, 0x0⟩, ⟨7, 0, .rw, 0x10⟩]
  | .yrdReliefStat => [⟨31, 0, .ro, 0x0⟩]
  | .yrdMarginCtl => [⟨31, 31, .wo, 0x0⟩, ⟨30, 30, .ro, 0x0⟩, ⟨29, 27, .rwp, 0x0⟩, ⟨26, 22, .rwp, 0x0⟩, ⟨21, 21, .rwp, 0x0⟩, ⟨20, 20, .rwp, 0x0⟩, ⟨13, 8, .rwp, 0x0⟩]
  | .yrdMarginRes => [⟨31, 0, .ro, 0x0⟩]
  | .dryId => [⟨31, 16, .rwm, 0x0⟩, ⟨11, 0, .rwm, 0x0⟩]
  | .dryE2e => [⟨31, 16, .rw, 0x40⟩, ⟨7, 0, .rw, 0x8⟩]
  | .dryRtSel => [⟨31, 31, .ro, 0x0⟩, ⟨11, 0, .rw, 0x0⟩]
  | .dryRtPri => [⟨31, 31, .rw, 0x0⟩, ⟨29, 24, .rw, 0x0⟩, ⟨23, 0, .rw, 0xffffff⟩]
  | .dryRtAlt => [⟨31, 31, .rw, 0x0⟩, ⟨29, 24, .rw, 0x0⟩, ⟨23, 0, .rw, 0xffffff⟩]
  | .dryPortCfg => [⟨31, 31, .rw, 0x0⟩, ⟨30, 30, .rw, 0x0⟩, ⟨27, 24, .rw, 0x8⟩, ⟨23, 16, .rw, 0x10⟩]
  | .dryPortStat => [⟨31, 31, .ro, 0x0⟩, ⟨30, 30, .ro, 0x0⟩, ⟨29, 28, .ro, 0x0⟩, ⟨27, 26, .ro, 0x0⟩, ⟨23, 12, .ro, 0x0⟩, ⟨11, 8, .ro, 0x0⟩, ⟨7, 0, .ro, 0x0⟩]
  | .alyCfg => [⟨15, 0, .rw, 0x10⟩]
  | .alyQRingLo => [⟨31, 7, .rw, 0x0⟩]
  | .alyQRingHi => [⟨19, 0, .rw, 0x0⟩]
  | .alyQRingCfg => [⟨31, 31, .rw, 0x0⟩, ⟨19, 16, .rw, 0x4⟩, ⟨15, 0, .rw, 0x0⟩]
  | .alyQStatus => [⟨31, 31, .ro, 0x0⟩, ⟨30, 30, .ro, 0x0⟩, ⟨29, 29, .ro, 0x0⟩, ⟨28, 28, .ro, 0x0⟩, ⟨27, 27, .ro, 0x0⟩, ⟨26, 26, .ro, 0x0⟩, ⟨9, 0, .ro, 0x0⟩]
  | .clkStatus => [⟨31, 31, .ro, 0x0⟩, ⟨15, 0, .ro, 0x0⟩]
  | .shlSensSel => [⟨7, 0, .rwp, 0x0⟩]
  | .shlSensData => [⟨31, 16, .ro, 0x0⟩, ⟨15, 0, .ro, 0x0⟩]
  | .shlFilt => [⟨31, 31, .ro, 0x0⟩, ⟨26, 24, .rwp, 0x2⟩, ⟨23, 16, .rwp, 0x14⟩, ⟨15, 0, .rwp, 0x32⟩]
  | .shlShopStat => [⟨31, 29, .ro, 0x0⟩, ⟨28, 26, .ro, 0x0⟩, ⟨25, 23, .ro, 0x0⟩, ⟨22, 20, .ro, 0x0⟩, ⟨19, 17, .ro, 0x0⟩, ⟨16, 16, .ro, 0x0⟩, ⟨15, 0, .ro, 0x0⟩]
  | .shlRuleLo => [⟨31, 31, .rwp, 0x0⟩, ⟨30, 28, .rwp, 0x0⟩, ⟨23, 16, .rwp, 0x0⟩, ⟨15, 15, .rwp, 0x0⟩, ⟨11, 0, .rwp, 0x0⟩]
  | .shlRuleHi => [⟨31, 16, .rwp, 0x0⟩, ⟨15, 12, .rwp, 0x0⟩, ⟨11, 0, .rwp, 0x0⟩]
  | .shlMargin => [⟨7, 0, .rwp, 0x1e⟩]
  | .shlTrip => [⟨31, 31, .w1c, 0x0⟩, ⟨23, 16, .ro, 0x0⟩, ⟨11, 0, .ro, 0x0⟩]
  | .pwrCtl => [⟨31, 30, .wo, 0x0⟩, ⟨15, 0, .rw, 0x400⟩]
  | .pwrStat => [⟨31, 30, .ro, 0x0⟩, ⟨29, 29, .w1c, 0x0⟩, ⟨2, 0, .ro, 0x0⟩]
  | .pwrGov => [⟨31, 29, .rw, 0x3⟩, ⟨23, 16, .rw, 0x1e⟩, ⟨15, 8, .rw, 0x14⟩, ⟨7, 7, .rw, 0x1⟩]
  | .pwrLimit => [⟨11, 0, .rw, 0x76c⟩]
  | .mldPour => [⟨31, 0, .wo, 0x0⟩]
  | .mldStatus => [⟨31, 31, .ro, 0x0⟩, ⟨30, 30, .w1c, 0x0⟩, ⟨23, 16, .ro, 0x0⟩, ⟨15, 0, .ro, 0x0⟩]
  | .secIdent => [⟨31, 16, .ro, 0x256⟩, ⟨7, 0, .ro, 0x11⟩]
  | .secState => [⟨31, 28, .ro, 0x0⟩, ⟨27, 27, .ro, 0x0⟩, ⟨26, 26, .ro, 0x0⟩, ⟨25, 25, .ro, 0x0⟩, ⟨24, 24, .w1c, 0x0⟩, ⟨23, 20, .ro, 0x0⟩, ⟨19, 16, .ro, 0x0⟩, ⟨15, 0, .ro, 0x0⟩]
  | .secMboxAddrLo => [⟨31, 12, .rw, 0x0⟩]
  | .secMboxAddrHi => [⟨19, 0, .rw, 0x0⟩]
  | .secMboxCmd => [⟨31, 31, .wo, 0x0⟩, ⟨11, 8, .rw, 0x0⟩, ⟨7, 0, .rw, 0x0⟩]
  | .secMboxStat => [⟨31, 31, .ro, 0x0⟩, ⟨3, 0, .ro, 0x0⟩]
  | .blkProt => [⟨31, 16, .ro, 0x0⟩, ⟨1, 1, .w1c, 0x0⟩, ⟨0, 0, .rwa, 0x0⟩]

/-- Every register. -/
def RegKind.all : List RegKind :=
  List.flatten [[.benDbgCtl, .benDbgStatus, .benDbgPc, .benDbgSel, .benDbgDataLo, .benDbgDataHi, .benBp, .benWpAddrLo, .benWpAddrHi, .benWpCfg, .benPguard, .benPsErr],
    [.benXdeleg, .benXjSp, .benXjSl, .benXjBase, .benSguardM, .benSguardJ, .benXcmpLo, .benXcmpHi, .benXstat, .benFenceTmo, .benProt, .lthProt],
    [.frgStatus, .frgSpareCtl, .frgRowmap, .frgPlateGeom, .frgProt, .cruStatus, .cruRchkCfg, .cruRchkStat, .cruRchkFail, .cruRowerrSel, .cruRowerrCnt, .cruProt],
    [.hmkOst, .xltHctBaseLo, .xltHctBaseHi, .xltEpoch, .xltFquota, .xltFteSel, .xltFteStat, .xltFringBaseLo, .xltFringBaseHi, .xltFringCfg, .xltFringHead, .xltFringTail],
    [.hmkLotSel, .hmkLotData, .hmkLotStat, .hmkDenyStat, .hmkDenyLot, .crtBRingLo, .crtBRingHi, .crtBRingCfg, .crtBStatus, .crtBCtl, .crtSRingLo, .crtSRingHi],
    [.crtSRingCfg, .crtSStatus, .crtSCtl, .crtLRingLo, .crtLRingHi, .crtLRingCfg, .crtLStatus, .crtLCtl, .crtTmo, .hopCfg, .hopOwn, .hopSpillLo],
    [.hopSpillHi, .hopStatus, .belGrpSel, .belGrpData, .belCntSel, .belCnt, .belDeny, .belDenyCnt, .fmnCfg, .fmnShiftCfg, .fmnShiftNum, .fmnSlotCtl],
    [.fmnSlotStat, .fmnSlotImgLo, .fmnSlotImgHi, .fmnSlotNotice, .fmnBenchCtl, .fmnBreset, .fmnFwend, .pexFmap, .pexLinkCfg, .pexLinkStat, .pexAwinCfg, .pexAwinOff],
    [.pexAwinLen, .pexAwinLot, .pexEringBaseLo, .pexEringBaseHi, .pexEringCfg, .pexEringHead, .pexEringTail, .pexFnCtl, .cthRingBaseLo, .cthRingBaseHi, .cthRingCfg, .cthRingCqLo],
    [.cthRingCqHi, .cthRingCqcfg, .cthRingFetch, .cthRingCqtail, .ingCfg, .ingStatus, .yrdSpread, .yrdStatus, .yrdGrpCfg, .yrdGrpStat, .yrdGrpFail, .yrdRetrain],
    [.yrdReliefCtl, .yrdReliefStat, .yrdMarginCtl, .yrdMarginRes, .dryId, .dryE2e, .dryRtSel, .dryRtPri, .dryRtAlt, .dryPortCfg, .dryPortStat, .alyCfg],
    [.alyQRingLo, .alyQRingHi, .alyQRingCfg, .alyQStatus, .clkStatus, .shlSensSel, .shlSensData, .shlFilt, .shlShopStat, .shlRuleLo, .shlRuleHi, .shlMargin],
    [.shlTrip, .pwrCtl, .pwrStat, .pwrGov, .pwrLimit, .mldPour, .mldStatus, .secIdent, .secState, .secMboxAddrLo, .secMboxAddrHi, .secMboxCmd],
    [.secMboxStat, .blkProt]]

/-- A register: its name, the number of its unit, and its number inside the unit. -/
structure Reg where
  kind : RegKind
  u : Nat := 0
  n : Nat := 0
  deriving DecidableEq, Repr

/-- The register-space offset of a register. -/
def Reg.off (r : Reg) : Nat := r.kind.place.base + r.u * r.kind.place.ustride + r.n * r.kind.place.nstride

/-- Quotient of a step in a strided array; a stride of 0 holds one element. -/
def strideIndex (d stride count : Nat) : Option (Nat × Nat) :=
  if stride = 0 then some (0, d)
  else if d / stride < count then some (d / stride, d % stride)
  else none

/-- The register of kind `k` at offset `off`, if `off` names one. The unit stride is the wider one. -/
def RegKind.at_ (k : RegKind) (off : Nat) : Option Reg :=
  if off < k.place.base then none
  else
    match strideIndex (off - k.place.base) k.place.ustride k.place.ucount with
    | none => none
    | some (u, d) =>
      match strideIndex d k.place.nstride k.place.ncount with
      | none => none
      | some (n, e) => if e = 0 then some ⟨k, u, n⟩ else none

/-- The register at a register-space offset (16 R466); none: reserved or unassigned. -/
def regAt (off : Nat) : Option Reg :=
  RegKind.all.foldl (fun acc k => match acc with | some r => some r | none => k.at_ off) none

/-- Sum of the fields' reset values at their places. -/
def resetOf : List Field → W32
  | [] => 0#32
  | f :: r => BitVec.ofNat 32 (f.reset * 2 ^ f.lo) ||| resetOf r

/-- The value a register holds after a reset of its block (00 R13). PROT.MODE resets to 1 in MLD, SEC, CLK, PWR, SHL and HMK
(16, <blk>_PROT). PEX_FN0_CTL does not exist: function 0 has no enable and its word reads 0 (16 R466). -/
def Reg.reset (r : Reg) : W32 :=
  match r.kind with
  | .blkProt => if r.u ≤ 4 ∨ r.u = 10 then 1#32 else 0#32
  | .pexFnCtl => if r.u = 0 then 0#32 else resetOf (RegKind.fields .pexFnCtl)
  | k => resetOf k.fields

/-- A mask of the bits [hi:lo] of a 32-bit word. -/
def fieldMask (hi lo : Nat) : W32 := BitVec.ofNat 32 ((2 ^ (hi + 1 - lo) - 1) * 2 ^ lo)

/-- The bits of the register's fields whose type satisfies `p`. -/
def maskOf (p : FieldType → Bool) : List Field → W32
  | [] => 0#32
  | f :: r => (if p f.type then fieldMask f.hi f.lo else 0#32) ||| maskOf p r

/-- Bits [hi:lo] of a register value. -/
def bits (v : W32) (hi lo : Nat) : Nat := v.toNat / 2 ^ lo % 2 ^ (hi + 1 - lo)

/-- A register value with bits [hi:lo] replaced. -/
def setBits (v : W32) (hi lo : Nat) (x : Nat) : W32 :=
  (v &&& ~~~ fieldMask hi lo) ||| BitVec.ofNat 32 (x % 2 ^ (hi + 1 - lo) * 2 ^ lo)

end Sys2Proof.Machine
end

