-- ==== Sys2Proof/Machine/State.lean ====
section
/-! DEFINITION. The whole state of the device, and the state after reset. -/

namespace Sys2Proof.Machine

/-- Why a step stops: the machine has no defined behaviour at all. -/
inductive Fault where
  /-- Raised by every command but PERST_ASSERT, POWER_ON and POWER_OFF after RAIL_DEPARTURE: a rail or the reference clock
  has left its band, and no rule binds until the next device reset (18 R513). Safe. -/
  | unbound
  deriving DecidableEq, Repr

/-- Why a step refuses a command. -/
inductive Refusal where
  /-- No meaning yet for the named command. Raised by exec's own arms only. Safe. -/
  | notModelled (mnemonic : String)
  deriving DecidableEq, Repr

/-! ## Records for the host -/

/-- An error record that waits for its ring (12 R389, table 12.9). -/
structure ErrRec where
  src : Byte
  event : BitVec 16
  hmk : BitVec 12 := 0
  fn : BitVec 6 := 0
  unit_ : BitVec 16 := 0
  w2 : W64 := 0
  w3 : W64 := 0
  deriving DecidableEq, Repr

/-- A fault record that waits for its ring (09 table 9.8): the first three words and the stamp. -/
structure FaultRec where
  w0 : W64
  w1 : W64
  w2 : W64
  stamp : W32
  deriving DecidableEq, Repr

/-! ## Translation (09) -/

/-- A cached leaf (09 R282): hallmark, first 64 KiB page, number of 64 KiB pages, leaf entry, and the epoch of its walk. -/
structure TEntry where
  hmk : BitVec 12
  page : Nat
  pages : Nat
  leaf : W64
  epoch : W32
  deriving DecidableEq, Repr

/-- A cached non-leaf entry: the table that serves DVA prefix `prefix_` of level `lvl`. -/
structure WEntry where
  hmk : BitVec 12
  lvl : Nat
  prefix_ : Nat
  entry : W64
  deriving DecidableEq, Repr

/-- An entry of the joined-fault table (09 R290, R291). The generation stays when the entry is freed. -/
structure FaultEntry where
  used : Bool := false
  gen : Byte := 0
  hmk : BitVec 12 := 0
  page : Nat := 0
  sub : Byte := 0
  join : Byte := 0
  fn : BitVec 6 := 0
  /-- The engines that wait, with the DVA that each asked for, in order. -/
  waiters : List (Engine × W64) := []
  deriving DecidableEq, Repr

/-- A miss that waits for a free fault-table entry or for quota (09 R293). -/
structure QuotaWait where
  engine : Engine
  hmk : BitVec 12
  dva : W64
  acc : Acc
  deriving DecidableEq, Repr

/-- An invalidation whose completion record is not yet written (09 R301). -/
structure Invalidation where
  epoch : W32
  ring : RingId
  header : W64
  seq : W32
  hmk : Option (BitVec 12)
  page : Nat
  pages : Nat
  deriving DecidableEq, Repr

/-- An engine that makes a request: `run` tells the descriptors of a carter, or the rows of a ladle, apart; `n` is the element that the
request serves, and `el` its address (10 R324). -/
structure Asker where
  eng : Engine
  run : Nat := 0
  n : Nat := 0
  el : W64 := 0
  deriving DecidableEq, Repr

/-- A request that has left its engine (09 R298): who made it, its hallmark and DVA, its length, and what its translation gave it: target,
share mask, class and epoch (R284, R285). A request outside the device has a tag (14 R429). -/
structure Flight where
  who : Asker
  hmk : BitVec 12
  dva : W64
  len : Nat
  way : Way
  tag : Nat := 0
  deriving DecidableEq, Repr

/-- A response from outside the device that its engine has not yet taken: the request that it answers, its status and its data. -/
structure Reply where
  flight : Flight
  status : ExtStatus
  data : List Byte := []
  deriving DecidableEq, Repr

/-- What waits for a bench whose A-clock stands still or whose core is halted in a stall (01 R33; 02 R86; 03 R111; 15 R453): a translation
that is tried again or abandoned (09 R295, R296), or the end of a CHIME, with its Bus error subcause if it failed (11 R350). -/
inductive Late where
  | retry (b : BenchId)
  | abandon (e : Engine) (entry page : Nat) (sub : Byte) (dva : W64)
  | chime (b : BenchId) (bad : Option Byte)
  deriving DecidableEq, Repr

/-- The translation unit (09). -/
structure Xlat where
  epoch : W32 := 0
  /-- Cached hallmark context descriptors: words 0 and 1 (09 R277). -/
  contexts : List (BitVec 12 × W64 × W64) := []
  /-- Leaf caches by number: bench b, 256 + carter, 816 + shop, 832 + hall (09 table 9.6). -/
  caches : Sparse (List TEntry) := []
  walks : List WEntry := []
  faults : Sparse FaultEntry := []
  quota : List QuotaWait := []
  inval : List Invalidation := []
  fltq : Sparse (List FaultRec) := []
  /-- Reads and atomic operations outside the device whose responses have not come, oldest first. -/
  flights : List Flight := []
  /-- Responses that have come and wait for their engine. -/
  replies : List Reply := []
  deriving DecidableEq, Repr

/-! ## Memory (08, 13) -/

/-- A line of a shop cache (08 R241): 128 bytes of the ingot or yard. -/
structure ShopLine where
  line : Nat
  data : List Byte
  deriving DecidableEq, Repr

/-- A running relief (13 R421, R422): group, channel and lines copied. -/
structure Relief where
  g : Nat
  ch : Nat
  wm : Nat := 0
  deriving DecidableEq, Repr

/-- The controllers' services (13 R412-R424). Channels are numbered 8 s + c, or 128 + 32 g + c. -/
structure Services where
  /-- Channel offset of the next scrubbed line. -/
  scrub : Sparse Nat := []
  /-- Channels that have run a slice in the present refresh interval. -/
  sliced : List Nat := []
  /-- The settings of each temper set, by 4 channel + band - 1, and those in use, with their band; settings are numbered by the
  model in the order in which training yields them (R415). -/
  sets : Sparse Nat := []
  loaded : Sparse (Nat × Nat) := []
  trainings : Nat := 0
  /-- Readings in a row 3 degrees below the lower edge, by group. -/
  cool : Sparse Nat := []
  /-- Provisional bands that a group has entered in service: 4 g + band - 1 (R417). -/
  entered : List Nat := []
  /-- Channels with a retrain scheduled, and failed retrains in a row (R418, R419). -/
  retrain : List Nat := []
  fails : Sparse Nat := []
  /-- Retrain slices of the present shift, by channel (R425). -/
  slices : Sparse Nat := []
  /-- Repaired rows: channel, bank and row (R420). -/
  repairs : List (Nat × Nat × Nat) := []
  relief : Option Relief := none
  /-- A margin point is scheduled (R424). -/
  margin : Bool := false
  /-- Corrected errors of ingot channels: channel and offset of the line (R420); and channels that have written CORRECTED in this shift
  (R425). -/
  rowErrs : List (Nat × Nat) := []
  reported : List Nat := []
  /-- Stacks in self-refresh (R414). -/
  selfRef : List ShopId := []
  deriving DecidableEq, Repr

/-- Counts of a channel's shift record (13 R425). -/
structure ChanShift where
  corrected : Nat
  uncorrected : Nat
  slices : Nat
  deriving DecidableEq, Repr

/-- The memories and what the device holds about them. Host and peer memory are surroundings: the model's view of them is
brought up to date by the commands that carry their contents (DESIGN CHOICE, log 7). -/
structure Mem where
  /-- The ingot and the yard, by DPA. -/
  dram : Memory := []
  /-- 64-byte lines last written under the watched class (09 R287, 13 R406). -/
  watched : Sparse Bool := []
  lineErr : Sparse LineErr := []
  /-- Lot entries (09 R304). -/
  lots : Sparse W32 := []
  shopCaches : Sparse (List ShopLine) := []
  host : Memory := []
  /-- Peer memory: key peer * 2^48 + DPA. -/
  peer : Memory := []
  /-- Writes to a peer not yet acknowledged by it, oldest first (08 table 8.3). -/
  acks : List Flight := []
  /-- Corrected errors per channel in this shift, and uncorrected ones (13 R425). Channel 8 s + c, or 128 + 32 g + c. -/
  corrected : Sparse Nat := []
  uncorrected : Sparse Nat := []
  serv : Services := {}
  /-- Shift records of the channels: the counts of the last shift. -/
  shift : Sparse ChanShift := []
  deriving DecidableEq, Repr

/-! ## The belfry (11, 14) -/

/-- A chime sent and not yet acknowledged (14 R439); `tries` counts its resends. -/
structure Sent where
  peer : PeerId
  seq : W32
  resync : Bool
  hmk : BitVec 12
  bell : BitVec 16
  v : W32
  tries : Nat := 0
  deriving DecidableEq, Repr

/-- The belfry: bell counts, group entries, and the chimes' sequence numbers (11 R342, R345; 14 R439). -/
structure Belfry where
  counts : Sparse W32 := []
  /-- BEL_GRP_DATA of each group. -/
  groups : Sparse W32 := []
  /-- The next number of a chime to each peer, and the number expected from each sender. -/
  nextSeq : Sparse W32 := []
  expect : Sparse W32 := []
  sent : List Sent := []
  /-- The last resynchronising chime applied, by sender (R350, R439). -/
  resynced : Sparse W32 := []
  /-- Peers whose next chime carries the resynchronise flag. -/
  resync : List PeerId := []
  /-- Chimes received and refused: sender and number. -/
  refused : List (PeerId × W32) := []
  deriving DecidableEq, Repr

/-! ## Carters and hoppers (10) -/

/-- Where a descriptor comes from: slot count `n` of the local ring, or a COPY entry of a command ring, or the part of a launch
copy for one rank (10 R310, R318). -/
inductive RunOf where
  | ring (n : W32)
  | copy (r : RingId) (n : W32)
  | part (r : RingId) (n : W32) (rank : Nat)
  deriving DecidableEq, Repr

/-- How far a descriptor has come. -/
inductive RunSt where
  | running
  /-- It waits at its next element, for an access at an address (10 R321); or on a hopper. -/
  | wait (w : EngWait) (addr : W64)
  | hop
  /-- Every request is issued (10 R323). -/
  | issued
  /-- It has failed: code, subcause and address of table 10.2 (10 R324). -/
  | failed (code : Byte) (sub : Byte) (addr : W64)
  deriving DecidableEq, Repr

/-- A descriptor in a carter: the model's own number of it, its words, its hallmark and its next element, which is the failing one once it
has failed. -/
structure Run where
  id : Nat
  src : RunOf
  words : List W64
  hmk : BitVec 12
  next : Nat := 0
  /-- The list entry of the next element, and the bytes of it, or of the next unit of a put, that have been read already. -/
  idx : Option W64 := none
  got : List Byte := []
  st : RunSt := .running
  /-- First unit that a take has claimed, or the end of a release that waits (10 R333, R336). -/
  claim : Option W64 := none
  /-- A hopper operation has been done. -/
  done : Bool := false
  /-- Bytes that this descriptor has overwritten, as they were: an overlapping source reads old or new (10 R322). -/
  undo : Sparse Byte := []
  deriving DecidableEq, Repr

/-- What a carter does with its local ring's memory (10 R312, R313, R324). -/
inductive RingOp where
  /-- It reads the control block; or, having read it, the descriptor of slot count `n`. -/
  | block
  | slot (n : W32)
  /-- It writes HEAD, or ERR. -/
  | head
  | stop
  /-- It reads TAIL and HEAD at the end of its kernel (11 R366). -/
  | close
  deriving DecidableEq, Repr

/-- An access to a local ring's memory at which its carter or quarter waits, and its DVA (09 R295, R296; 10 R321). -/
structure RingWait where
  op : RingOp
  wait : EngWait
  addr : W64
  deriving DecidableEq, Repr

/-- A carter: its local ring and its foreman feed (10 R310). Runs are oldest first. -/
structure Carter where
  /-- The job slot to which a shop or link carter is bound (11 R364). -/
  slot : Option SlotId := none
  loc : List Run := []
  fore : List Run := []
  /-- Descriptors started so far: the model's own count. -/
  serial : Nat := 0
  /-- The feed that moved the last 64-byte unit: true for the local ring (10 R310). -/
  last : Option Bool := none
  ringWait : Option RingWait := none
  /-- Word 3 of the control block when it was last read: EBE and EBELL. -/
  word3 : W64 := 0
  /-- The doorbell bell's count when the control block was last read, and whether it must be read again (10 R313). -/
  seen : W32 := 0
  reread : Bool := false
  /-- CRT_STATUS.ERR. -/
  err : Bool := false
  deriving DecidableEq, Repr

/-- The claim of a take: its ring, its `n` units from `lo`, and whether they have been read (10 R333, R335). -/
structure Claim where
  carter : CarterId
  loc : Bool
  lo : W64
  n : Nat
  read : Bool := false
  deriving DecidableEq, Repr

/-- A hopper (10 R330-R337): its five counts of 64 bits, and the bytes of the units in its two on-die buffers. Unit u stands at 64 (u mod
CAP) there, as it does in the spill region when it has spilled. -/
structure Hopper where
  wr : W64 := 0
  vis : W64 := 0
  rd : W64 := 0
  mark : W64 := 0
  rel : W64 := 0
  data : Memory := []
  /-- The places of the units that have spilled (10 R330, R340). -/
  spilled : List Nat := []
  /-- The ring that owns the open packet: a carter and whether it is its local ring. -/
  open_ : Option (CarterId × Bool) := none
  claims : List Claim := []
  /-- Takes and HOPCTLs that wait, and puts that have not ended, each in the order received (R334). -/
  takers : List (CarterId × Bool) := []
  putters : List (CarterId × Bool) := []
  /-- Unit counts of closed packets whose notice has not been rung. -/
  notices : List Nat := []
  deriving DecidableEq, Repr

/-! ## Streams and kernels (11, 12) -/

/-- How a stream entry stands. -/
inductive EntrySt where
  | fetched
  | begun
  /-- Ended: its status, code and address (12 table 12.7); its record is not yet written. -/
  | ended
  deriving DecidableEq, Repr

/-- A fetched entry of a ring (12 R384): slot count, words and state. -/
structure SEntry where
  n : W32
  words : List W64
  st : EntrySt := .fetched
  /-- Ranks of a launch copy's parts that are still to run, once its launch has assigned benches (10 R318). -/
  parts : List Nat := []
  /-- Parts handed to a carter and not ended. -/
  running : List Nat := []
  /-- The failing part of lowest rank: its rank, CODE and ADDR. -/
  failed : Option (Nat × Byte × W64) := none
  /-- COPY entries that stand immediately before it (11 R355), and whether a prerequisite of a launch has failed. -/
  pre : Nat := 0
  preFailed : Bool := false
  /-- The chime of a BRING (11 R355): peer and sequence number. -/
  chime : Option (PeerId × W32) := none
  deriving DecidableEq, Repr

/-- A completion record that waits for room in its queue (12 R387): words 0 (without PHASE) to 3. -/
structure CRec where
  n : W32
  w0 : W64
  w1 : W64
  w2 : W64
  w3 : W64
  irq : Bool
  deriving DecidableEq, Repr

/-- A command ring (12 R383-R387, R530). -/
structure Ring where
  /-- Last valid tail doorbell, and the completion-queue head. -/
  tail : W32 := 0
  cqHead : W32 := 0
  entries : List SEntry := []
  recs : List CRec := []
  /-- COPY entries fetched since the last entry of another type, and those of them that have ended with a status other than OK (11 R355). -/
  copies : Nat := 0
  lostCopies : List W32 := []
  /-- The job slot bound to the stream, and the function that it took at the binding (11 R354). -/
  slot : Option SlotId := none
  slotFn : BitVec 6 := 0
  /-- A reset of its function discards its records until it is enabled again (12 R396). -/
  mute : Bool := false
  deriving DecidableEq, Repr

/-- The phase of a slot's kernel (11 R358-R370). -/
inductive KPhase where
  /-- No kernel. -/
  | none
  /-- Waits for benches or engines. -/
  | waiting
  /-- Benches assigned; launch blocks are being written. -/
  | assigned
  | running
  /-- Ends; `kill`: at once (11 R361). -/
  | ending (kill : Bool)
  | preempting
  | preempted
  /-- Images restored; groups are being woken (11 R370). -/
  | resuming
  deriving DecidableEq, Repr

/-- The kernel of a job slot. -/
structure Kernel where
  phase : KPhase := .none
  /-- Its status (11 table 11.7): 0 OK; and the code of ABORTED. -/
  status : Byte := 0
  code : BitVec 16 := 0
  ring : RingId := 0
  n : W32 := 0
  words : List W64 := []
  /-- Assigned benches in increasing number: position is rank. -/
  benches : List BenchId := []
  /-- Benches whose launch block is written or image restored, and benches woken. -/
  written : List BenchId := []
  woken : List BenchId := []
  /-- Benches that have become free at the end, or whose image is written. -/
  free : List BenchId := []
  /-- Benches to which a foreman notice is owed at their next release (11 R371). -/
  owed : List BenchId := []
  /-- The foreman notice that is owed (11 R371). -/
  notice : W32 := 0
  /-- Local rings that were enabled when they stopped: carters and quarters (11 R361, R366, R368). -/
  rings : List CarterId := []
  quarters : List HallId := []
  /-- Order of release (11 R367), the model's own count. -/
  order : Nat := 0
  /-- A Function Level Reset ends it: its records are discarded (12 R396). -/
  silent : Bool := false
  /-- Saved benches by rank, and their BEN registers of table 11.6, while preempted (11 R369). -/
  images : Sparse Bench := []
  imageRegs : Sparse (List W32) := []
  deriving DecidableEq, Repr

/-! ## Host functions (12) -/

/-- An MSI-X table entry: address, data and mask (12 R390; PCI reset: masked). -/
structure MsixEntry where
  addr : W64 := 0
  data : W32 := 0
  masked : Bool := true
  deriving DecidableEq, Repr

/-- What raises a vector (12 R391): a command ring, the function's fault ring, or its error ring. -/
inductive VecSrc where
  | ring (r : RingId)
  | fault
  | error
  deriving DecidableEq, Repr

/-- A function's PCI Express configuration (12 R377, R391, R392). PRESUMED, log 8. -/
structure Fn where
  busMaster : Bool := false
  msixEnable : Bool := false
  vfEnable : Bool := false
  atomicRequester : Bool := false
  completionTimeout : BitVec 4 := 0
  barSize : BitVec 6 := 10
  config : Sparse W32 := []
  msix : Sparse MsixEntry := []
  /-- Pending bits: vectors whose message waits (12 R391). -/
  pba : List Nat := []
  /-- Vectors due: the record that each announces has been written (12 R391). -/
  due : List (Nat × VecSrc) := []
  deriving DecidableEq, Repr

/-- Posted traffic that waits in the port while its link is down (12 R394): a write under the requester ID of a function, of an engine's
request or of the device's own (12 R383), or a vector. -/
inductive PortItem where
  | write (who : Option Flight) (fn : BitVec 6) (pasid : Option (BitVec 20)) (addr : Nat) (data : List Byte)
  | msix (fn : FnId) (vec : Nat)
  deriving DecidableEq, Repr

/-! ## Dray ports and the alloy engine (14) -/

/-- A dray port's link layer (14 R428, R430). -/
structure Port where
  /-- SEQ of the next flit sent, and of the last good flit received in order. -/
  seq : BitVec 12 := 0
  last : BitVec 12 := 0xFFF
  /-- Sent flits not yet acknowledged, oldest first. -/
  replay : List Flit := []
  /-- NAK is due in the next sent flit; and has been set for the present gap. -/
  nak : Bool := false
  gap : Bool := false
  /-- Replays in a row without progress. -/
  idle : Nat := 0
  /-- Lane pairs dropped. -/
  pairs : List Nat := []
  /-- Credits in units of 16 bytes: key 4 class + layer. -/
  credits : Sparse Nat := []
  /-- Packets queued to be sent, oldest first; and units still to come of the packet that the last flit began. -/
  queue : List Packet := []
  rest : Nat := 0
  /-- Packets in the receive buffers, oldest first. -/
  rx : List Packet := []
  /-- It trains again, and keeps all of this (14 R431). -/
  retrain : Bool := false
  deriving DecidableEq, Repr

/-- A block of 256 bytes that a quarter has received (14 R442). -/
structure Block where
  chunk : Nat
  elem : Nat
  final : Bool
  data : List Byte
  deriving DecidableEq, Repr

/-- An active collective (14 R440-R443). -/
structure Coll where
  n : W32
  words : List W64
  hmk : BitVec 12
  /-- The HELLO from PREV has been accepted. -/
  met : Bool := false
  /-- Own blocks still to send, as (chunk, first element). -/
  todo : List (Nat × Nat) := []
  inbox : List Block := []
  /-- Final blocks still to write or receive. -/
  left : Nat := 0
  wait : Option EngWait := none
  /-- Bytes of the present block's input that have been read already. -/
  got : List Byte := []
  /-- It has failed, with code, subcause and address (10 R324), and waits for its requests to end. -/
  failed : Option (Byte × Byte × W64) := none
  deriving DecidableEq, Repr

/-- A quarter of the alloy engine. -/
structure Quarter where
  slot : Option SlotId := none
  coll : Option Coll := none
  /-- HELLOs from PREV that no collective has yet taken, oldest first. -/
  early : List Hello := []
  seen : W32 := 0
  reread : Bool := false
  err : Bool := false
  ringWait : Option RingWait := none
  /-- Word 3 of the control block when it was last read. -/
  word3 : W64 := 0
  deriving DecidableEq, Repr

/-- The dray links and the alloy engine. -/
structure Dray where
  ports : Sparse Port := []
  /-- DRY_RT_PRI and DRY_RT_ALT as applied, by peer. -/
  pri : Sparse W32 := []
  alt : Sparse W32 := []
  /-- Written routes that await R438, oldest first: peer, whether the alternate, value. -/
  pendRt : List (PeerId × Bool × W32) := []
  /-- Peers whose requests take the alternate path; and peers whose failover or return awaits R438. -/
  onAlt : List PeerId := []
  change : List PeerId := []
  quarters : Sparse Quarter := []
  /-- Held CIDs, oldest first; and (CID, origin) pairs forwarded (14 R444). -/
  held : List (BitVec 16) := []
  forwarded : List (BitVec 16 × PeerId) := []
  /-- Requests that wait at the port unit for a change of path, oldest first (14 R438); and tags given to
  requests so far. -/
  parked : List (Packet × Flight) := []
  tags : Nat := 0
  /-- Packets dropped in transit (14 R429, R436). -/
  drops : Nat := 0
  deriving DecidableEq, Repr

/-! ## Sheler (15, 17, 18) -/

/-- Sheler's hardware. Times are counted in samples, one each 10 microseconds, and in power checks, one each millisecond. -/
structure Sheler where
  /-- Last sample and filtered value by sensor number (15 R450, R451); a sensor not listed has had no sample. -/
  raw : Sparse Int := []
  filt : Sparse Int := []
  /-- T_f at entry to level 2, and samples since, by shop (15 table 15.3). -/
  hot2 : Sparse Int := []
  hold2 : Sparse Nat := []
  /-- Samples in a row for which the leaving condition has held; and samples at level 4 in this episode, by shop. -/
  leave : Sparse Nat := []
  at4 : Sparse Nat := []
  /-- Die floors in force: 4 shop + index of table R455 (floors 1, 2, 4, and the floor 2 of the hall's periphery); the value is the
  number of samples in a row 3 degrees below its threshold. -/
  die : Sparse Nat := []
  /-- Milliseconds in a row above PCAP, and below 0.9 PCAP; samples in a row above 2,300 W (15 R457). -/
  above : Nat := 0
  under : Nat := 0
  excess : Nat := 0
  /-- Shops whose DWELL has expired in this episode (15 R454). -/
  dwelt : List ShopId := []
  /-- Rules: consecutive evaluations that held, or failed while acting; and rules that act (15 R463). -/
  ruleRun : Sparse Nat := []
  acting : List Nat := []
  /-- The last bench of the group whose dross duty fell last (15 R459). -/
  drossTurn : Nat := 255
  /-- Records for the sideband not yet collected (18 R520). -/
  notices : Nat := 0
  thermtrip : Bool := false
  /-- TRIP_SEEN to be written after the next start: sensor and reading (15 table 15.6, 17 table 17.1). -/
  tripSeen : Option (Byte × BitVec 12) := none
  /-- The margin register selected for each shop, and droop events of the shift by shop (15 R461). -/
  margin : Sparse Nat := []
  droops : Sparse Nat := []
  /-- Shift records of the shops: droop events of the last shift (11 R372). -/
  shift : Sparse Nat := []
  /-- Sheler's records that wait for a running runtime (17 R503). -/
  waitRecs : List ErrRec := []
  deriving DecidableEq, Repr

/-- An image that Sheler has accepted (17 R492, R493). -/
structure Image where
  svn : W32
  entry : W64
  payload : List Byte
  header : List Byte
  deriving DecidableEq, Repr

/-- Start-up, identity and images (17). -/
structure Sec where
  straps : Straps := {}
  /-- PERST_N is asserted. -/
  perst : Bool := true
  /-- The part record's bytes, as fetched or as kept current; empty: none. -/
  helper : List Byte := []
  entries : List (BitVec 128) := []
  /-- The fetched record awaits its verification; its signed bytes and signature. -/
  unverified : Option (List Byte × List Byte) := none
  fetched : Bool := false
  /-- The identity seed (17 R489). -/
  seed : List Byte := []
  meas : Sparse (List Byte) := []
  current : Sparse Image := []
  staged : Sparse Image := []
  /-- A configuration list has been applied (17 R499). -/
  configured : Bool := false
  /-- The runtime runs (17 R503). -/
  runtime : Bool := false
  /-- What bring-up has done: stacks, yard groups and benches tested. -/
  tested : Bool := false
  /-- The mailbox command that GO has started and its KIND (17 R497). -/
  started : Option (Nat × Nat) := none
  /-- JTAG: the instruction in force (18 R522), after reset IDCODE (PRESUMED, log 158). -/
  jtag : BitVec 4 := 1
  deriving DecidableEq, Repr

/-! ## What leaves the device -/

/-- What the device sends to its surroundings: the model's own record of it, oldest first (DESIGN CHOICE, log 16). -/
inductive Out where
  | msix (fn : FnId) (vec : Nat) (addr : W64) (data : W32)
  | flit (p : PortId) (x : Flit)
  /-- At link-up a port tells DOM, peer id and port number (14 R432). -/
  | hail (p : PortId) (dom : BitVec 16) (peer : PeerId)
  | barData (k : LinkId) (data : List Byte) (poisoned : Bool)
  | unsupported (k : LinkId)
  | config (f : FnId) (x : ConfigField) (v : Nat)
  | reply (data : List Byte)
  | served (dpa : Nat) (st : ExtStatus) (data : List Byte)
  | tdo (ir : BitVec 4) (data : W32)
  /-- Under I3C Basic, Sheler's in-band interrupt for a notice (18 R520). -/
  | inBand
  deriving DecidableEq, Repr

/-- What a request in the queue of a stack in self-refresh brings when the stack serves it (13 R414): an answer to the outside or to a peer, the response
to an engine's read, or nothing more, for a write. -/
inductive HeldWhat where
  | out (o : Out)
  | peer (p : PeerId) (u : ReqUnit) (data : List Byte)
  | reply (r : Reply)
  | write
  deriving DecidableEq, Repr

/-- A request in the queue of channel `chan`. DEDUCED, log 86. -/
structure Held where
  chan : Nat
  what : HeldWhat
  deriving DecidableEq, Repr

/-! ## The device -/

/-- The state of the device. -/
structure State where
  /-- Commands that wait, first in first out (the model's queue of the outside world's commands). -/
  pending : List Instr := []
  /-- Free values drawn so far, the benches' secrets first: the model's own counter (DESIGN CHOICE, log 2). -/
  draws : Nat := 1
  /-- The draw that names the secrets which the benches took at the last device reset (03 R97). -/
  keyDraw : Nat := 0
  /-- A rail or REFCLK has left its band (18 R513). -/
  departed : Bool := false
  /-- The root PLL runs (15 R447, 17 R487). -/
  rootOn : Bool := false
  benches : Sparse Bench := []
  /-- What waits for benches that stand still, oldest first. -/
  late : List Late := []
  /-- Applied copies of the registers, by register-space offset; an unlisted register holds its reset value (16 R466, R471). -/
  regs : Sparse W32 := []
  /-- Moulds written since the last POUR that applied them (16 R471). -/
  moulds : Sparse W32 := []
  /-- Error records that wait, by function (12 R389). -/
  errq : Sparse (List ErrRec) := []
  /-- Records held before READY, at most 64 (17 R487). -/
  heldRecs : List ErrRec := []
  xlat : Xlat := {}
  mem : Mem := {}
  /-- Requests in the queues of stacks in self-refresh, in order of arrival (13 R414). -/
  held : List Held := []
  fns : Sparse Fn := []
  /-- Posted traffic that waits in the port, by link (12 R394). -/
  portq : Sparse (List PortItem) := []
  kernels : Sparse Kernel := []
  /-- Launches that wait, in order of arrival, by slot (11 R358). -/
  launchq : List SlotId := []
  /-- Kernels released so far: the model's own counter (11 R367). -/
  releases : Nat := 0
  /-- The next shop carter of the rotation (11 R355), and the shops whose odd carter is next. -/
  rotate : Nat := 0
  shopAlt : Sparse Bool := []
  rings : Sparse Ring := []
  /-- The ring after which the counting-house's next turn looks (11 R353). -/
  turn : Nat := 4095
  belfry : Belfry := {}
  /-- Carters by number: bench carter c, 512 + shop carter, 544 + link carter. -/
  carters : Sparse Carter := []
  hoppers : Sparse Hopper := []
  dray : Dray := {}
  sheler : Sheler := {}
  sec : Sec := {}
  /-- Posted register writes that have not landed, by block: offset, value and the lot selected (16 R475). -/
  posted : Sparse (Nat × W32 × Nat) := []
  /-- Pours of slow-domain fields that have not landed (16 R476). -/
  pouring : List Nat := []
  /-- Registers whose mould failed parity (16 R478). -/
  badMoulds : List Nat := []
  /-- Benches that the foreman resets after a seizure, and enables again (17 R507). -/
  seizing : List BenchId := []
  /-- The bench that FMN_BRESET resets (17 R506). -/
  resetting : Option BenchId := none
  out : List Out := []
  deriving DecidableEq, Repr

/-- The state after a device reset. PRESUMED, log 134. -/
def State.reset : State := {}

end Sys2Proof.Machine
end

