-- ==== Sys2Proof/Machine/Ops.lean ====
section
/-! DEFINITION. The shared operations over the state: units, registers, free values, clocks and records. -/

namespace Sys2Proof.Machine

/-! ## When a command is bound by the rules -/

/-- A command acts unless a rail has departed (18 R513), whose named stop is `Fault.unbound`. -/
def act (s : State) (f : State → State) : Host.Outcome State Fault Refusal :=
  if s.departed then .fault .unbound else .next (f s)

/-- A command of a clocked unit: with the root PLL off nothing happens (15 R447, R456). -/
def clocked (f : State → State) (s : State) : State := if s.rootOn then f s else s

/-! ## Free values -/

/-- The number of the next free value (DESIGN CHOICE, log 2). -/
def State.drawn (s : State) : State := { s with draws := s.draws + 1 }

/-- Adds to the record of what leaves the device. -/
def State.emit (s : State) (o : Out) : State := { s with out := s.out ++ [o] }

/-! ## Registers -/

/-- The stored word of a register: its applied copy. -/
def State.reg (s : State) (r : Reg) : W32 := Sp.get (fun _ => r.reset) s.regs r.off

/-- Stores the word of a register. -/
def State.setReg (s : State) (r : Reg) (v : W32) : State := { s with regs := Sp.put s.regs r.off v }

/-- Field [hi:lo] of register `k` of unit `u`. -/
def State.fld (s : State) (k : RegKind) (u hi lo : Nat) : Nat := bits (s.reg ⟨k, u, 0⟩) hi lo

/-- Stores field [hi:lo] of register `k` of unit `u`. -/
def State.setFld (s : State) (k : RegKind) (u hi lo : Nat) (x : Nat) : State :=
  s.setReg ⟨k, u, 0⟩ (setBits (s.reg ⟨k, u, 0⟩) hi lo x)

/-- Adds `n` to a counting field that saturates at all ones. -/
def State.satAdd (s : State) (k : RegKind) (u hi lo n : Nat) : State :=
  s.setFld k u hi lo (min (s.fld k u hi lo + n) (2 ^ (hi + 1 - lo) - 1))

/-! ## Benches -/

/-- Bench `b` as a device reset leaves it: it has drawn its secret (03 R97). -/
def Bench.fresh (b : BenchId) (draw : Nat) : Bench := { core := { xkeyBench := b, xkeyDraw := draw } }

/-- Bench `b`. -/
def State.bench (s : State) (b : BenchId) : Bench := Sp.get (fun _ => Bench.fresh b s.keyDraw) s.benches b.val

/-- Replaces bench `b`. -/
def State.setBench (s : State) (b : BenchId) (x : Bench) : State := { s with benches := Sp.put s.benches b.val x }

/-- Changes bench `b`. -/
def State.updBench (s : State) (b : BenchId) (f : Bench → Bench) : State := s.setBench b (f (s.bench b))

/-- Changes the core of bench `b`. -/
def State.updCore (s : State) (b : BenchId) (f : Core → Core) : State :=
  s.updBench b fun x => { x with core := f x.core }

/-- Changes the lathe of bench `b`. -/
def State.updLathe (s : State) (b : BenchId) (f : Lathe → Lathe) : State :=
  s.updBench b fun x => { x with lathe := f x.lathe }

/-- Changes the forge of bench `b`. -/
def State.updForge (s : State) (b : BenchId) (f : Forge → Forge) : State :=
  s.updBench b fun x => { x with forge := f x.forge }

/-- The shop of a bench (00 R4). -/
def shopOf (b : BenchId) : ShopId := ⟨b.val / 16, by omega⟩

/-- The hall of a bench (00 R4). -/
def hallOf (b : BenchId) : HallId := ⟨b.val / 64, by omega⟩

/-- The A-clock of bench `b` runs: the root PLL is on, the shop's divisor is not "stopped" (15 SHL_SHOPs_STAT.DIV), and the device
is not in Nap, where every A-clock is gated (15 table 15.5). DEDUCED, log 104. -/
def State.aclock (s : State) (b : BenchId) : Bool :=
  s.rootOn && s.fld .shlShopStat (shopOf b).val 31 29 != 4 && s.fld .pwrStat 0 31 30 != 1

/-- Both firmware images have been accepted: step 6 of start-up is over (17 table 17.2). -/
def State.firmwareIn (s : State) : Bool := (Sp.find s.sec.current 2).isSome && (Sp.find s.sec.current 3).isSome

/-- The divisor that shop `k` asks for: the largest of its four requests (15 R449). -/
def State.divWanted (s : State) (k : Nat) : Nat :=
  max (max (s.fld .shlShopStat k 28 26) (s.fld .shlShopStat k 25 23)) (max (s.fld .shlShopStat k 22 20) (s.fld .shlShopStat k 19 17))

/-- The hallmark under which bench `b` runs: that of its job slot (01 R31, 11 FMN_SLOTn_STAT.HMK). -/
def State.benchHmk (s : State) (b : BenchId) : BitVec 12 :=
  match (s.bench b).slot with
  | none => 0
  | some n => BitVec.ofNat 12 (s.fld .fmnSlotStat n.val 23 12)

/-- The device is READY (17 SEC_STATE.PHASE = 5). -/
def State.ready (s : State) : Bool := s.fld .secState 0 31 28 == 5

/-! ## Error records (12 R389) -/

/-- Queues an error record for the ring of function `fn`. -/
def State.pushRec (s : State) (fn : Nat) (r : ErrRec) : State :=
  { s with errq := Sp.put s.errq fn (Sp.get (fun _ => []) s.errq fn ++ [r]) }

/-- An error record goes to the PF's ring, and to the ring of its function as well when that is another (12 R389). Before READY
up to 64 records are held and further ones are counted in SEC_STATE.LOST (17 R487). -/
def State.record (s : State) (r : ErrRec) : State :=
  if s.ready then
    let s := s.pushRec 0 r
    if r.fn = 0 then s else s.pushRec r.fn.toNat r
  else if s.heldRecs.length < 64 then { s with heldRecs := s.heldRecs ++ [r] }
  else s.satAdd .secState 0 23 20 1

/-- A notice for the sideband: ALERT_N shows it until it is collected, and under I3C Basic an in-band interrupt takes its place (18 R520). -/
def State.notice (s : State) : State :=
  if s.sec.straps.sbmode = 1 then s.emit .inBand
  else { s with sheler := { s.sheler with notices := s.sheler.notices + 1 } }

/-- Sheler writes a record, and raises a notice when it does: a record held until READY raises it there (17 R487). -/
def State.shelWrite (s : State) (r : ErrRec) : State := (if s.ready then s.notice else s).record r

/-- A record of Sheler's waits while the runtime is stopped (17 R503). -/
def State.shelSend (s : State) (r : ErrRec) : State :=
  if s.ready && !s.sec.runtime then { s with sheler := { s.sheler with waitRecs := s.sheler.waitRecs ++ [r] } } else s.shelWrite r

/-- A record of Sheler's about a shop, or the device with UNIT 0xFFFF (15 R465). -/
def State.shelRec (s : State) (event : BitVec 16) (unit_ : Nat) (w2 w3 : Nat) : State :=
  s.shelSend { src := 7, event, unit_ := BitVec.ofNat 16 unit_, w2 := BitVec.ofNat 64 w2, w3 := BitVec.ofNat 64 w3 }

/-- Sheler adds an entry to the current part record (17 R491, table 17.4). -/
def State.addEntry (s : State) (type loc : Nat) : State :=
  let es := s.sec.entries ++ [BitVec.ofNat 128 (loc + type)]
  { s with sec := { s.sec with entries := es } }.shelRec 0x11 0xFFFF es.length type

end Sys2Proof.Machine
end

