-- ==== Sys2Proof/Machine/Memory.lean ====
section
/-! DEFINITION. The memories: the DPA map and its interleave (09 table 9.2, 13 R401-R405, R409), lots (09 R303-R307), the two
protection classes at the controllers (13 R406, R410), bench-store windows (08 R242, R243, 03 R93) and the shop caches
(08 R241). -/

namespace Sys2Proof.Machine

/-! ## The DPA map -/

/-- ING_CFG.UNITS as it acts: values above 31 act as 31 (13). -/
def State.ingUnits (s : State) : Nat := min 31 (s.fld .ingCfg 0 31 26)

/-- Length of a stack's ranged portion (13 R401). -/
def State.ingRanged (s : State) : Nat := 0x80000000 - s.ingUnits * 0x4000000

/-- Stack `n` is in service. -/
def State.stackUp (s : State) (n : Nat) : Bool := (s.reg ⟨.ingStatus, 0, 0⟩).getLsbD n && n < 16

/-- Yard group `g` is in service. -/
def State.groupUp (s : State) (g : Nat) : Bool := (s.reg ⟨.yrdStatus, 0, 0⟩).getLsbD g && g < 8

/-- Channels of yard group `g`: 32 for GDDR7, 16 for GDDR6 (13 table 13.1). -/
def State.grpChannels (s : State) (g : Nat) : Nat := if s.fld .yrdGrpCfg g 30 30 = 0 then 32 else 16

/-- Density of a device in gibibits, if DENS names one (13 YRD_GRPg_CFG.DENS). -/
def densOf (gen dens : Nat) : Option Nat :=
  match gen, dens with
  | 0, 0 => some 16
  | 0, 1 => some 24
  | 0, 2 => some 32
  | 1, 0 => some 8
  | 1, 1 => some 16
  | _, _ => none

/-- Data capacity of yard group `g`: 7/8 of eight devices, or sixteen in clamshell (13 R397, R408). -/
def State.grpData (s : State) (g : Nat) : Nat :=
  match densOf (s.fld .yrdGrpCfg g 30 30) (s.fld .yrdGrpCfg g 27 26) with
  | none => 0
  | some d => d * 0x40000000 * (if s.fld .yrdGrpCfg g 29 29 = 1 then 2 else 1) / 8 * 7

/-- The groups named in YRD_SPREAD.GMASK, rising. -/
def State.spreadGroups (s : State) : List Nat :=
  (List.range 8).filter fun g => (s.reg ⟨.yrdSpread, 0, 0⟩).getLsbD (24 + g)

/-- Contribution of group `g` to the spread portion, in bytes. -/
def State.grpSpread (s : State) (g : Nat) : Nat :=
  if s.spreadGroups.contains g then min 64 (s.fld .yrdSpread 0 6 0) * 0x40000000 else 0

/-- Bytes of relief reserve in each channel (13 R409). -/
def State.grpReserve (s : State) (g : Nat) : Nat :=
  if s.fld .yrdGrpCfg g 28 28 = 1 then
    let c := s.grpChannels g
    let d := c * (c - 1) * 2048
    (s.grpSpread g + d - 1) / d * 2048
  else 0

/-- Ranged length of yard group `g` (13 R409). -/
def State.grpRanged (s : State) (g : Nat) : Nat :=
  (s.grpData g - s.grpSpread g - s.grpChannels g * s.grpReserve g) / 0x200000 * 0x200000

/-- Every group of the spread portion has the same generation (13 R404). -/
def State.spreadUniform (s : State) : Bool :=
  match s.spreadGroups with
  | [] => true
  | g :: r => r.all fun h => s.fld .yrdGrpCfg h 30 30 == s.fld .yrdGrpCfg g 30 30

/-- Where a DPA lies: its channel (8 s + c in the ingot, 128 + 32 g + c in the yard), its offset there, and whether it is of
the spread portion. -/
structure Route where
  chan : Nat
  off : Nat
  spread : Bool
  deriving DecidableEq, Repr

/-- The relieved channel of group `g`, and the lines of its spread area that are served from the reserve: those copied so far, or every one
(13 R422, R423). -/
def State.relieved (s : State) (g : Nat) : Option (Nat × Option Nat) :=
  match s.mem.serv.relief with
  | some x =>
    if x.g = g then some (x.ch, some x.wm)
    else if s.fld .yrdGrpStat g 25 25 = 1 then some (s.fld .yrdGrpStat g 24 19, none) else none
  | none => if s.fld .yrdGrpStat g 25 25 = 1 then some (s.fld .yrdGrpStat g 24 19, none) else none

/-- Where offset `y` of the spread area of channel `ch` of group `g` is served: in the channel itself, or in the reserve, which lies after
the spread area of each other channel (13 R404, R409, R422). -/
def State.spreadRoute (s : State) (g ch y : Nat) : Route :=
  let c := s.grpChannels g
  let own : Route := ⟨128 + 32 * g + ch, s.grpRanged g / c + y, true⟩
  match s.relieved g with
  | none => own
  | some (dead, wm) =>
    let k := y / 128
    if ch ≠ dead || wm.any (· ≤ k) then own
    else
      let i := k % (c - 1)
      ⟨128 + 32 * g + (if i < dead then i else i + 1), s.grpRanged g / c + s.grpSpread g / c + k / (c - 1) * 128 + y % 128, true⟩

/-- The controller and channel of a DPA of the ingot or the yard; none: unpopulated (13 R401-R405, 09 R274). -/
def State.route (s : State) (a : Nat) : Option Route :=
  if a < 0x800000000 then
    let n := a / 0x80000000
    let x := a % 0x80000000
    if s.stackUp n && x < s.ingRanged then
      some ⟨8 * n + (x / 4096) % 8, x / 32768 * 4096 + x % 4096, false⟩
    else none
  else if a < 0x10000000000 then
    let y := a - 0x800000000
    let i := (y / 2048) % 128
    if y < s.ingUnits * 0x40000000 && s.stackUp (i % 16) then
      some ⟨8 * (i % 16) + i / 16, s.ingRanged / 8 + y / 0x40000 * 2048 + y % 2048, true⟩
    else none
  else if a < 0x20000000000 then
    let g := (a - 0x10000000000) / 0x1000000000
    let x := (a - 0x10000000000) % 0x1000000000
    if s.groupUp g && x < s.grpRanged g then
      let c := s.grpChannels g
      some ⟨128 + 32 * g + (x / 2048) % c, x / (c * 2048) * 2048 + x % 2048, false⟩
    else none
  else if a < 0x30000000000 then
    let y := a - 0x20000000000
    let gs := s.spreadGroups
    let n := gs.length
    match gs with
    | [] => none
    | g0 :: _ =>
      let c := s.grpChannels g0
      let i := (y / 2048) % (n * c)
      let g := gs.getD (i % n) g0
      if s.spreadUniform && y < n * (min 64 (s.fld .yrdSpread 0 6 0)) * 0x40000000 && s.groupUp g then
        some (s.spreadRoute g (i / n) (y / (n * c * 2048) * 2048 + y % 2048))
      else none
  else none

/-- First DPA of the bench-store windows (09 table 9.2). -/
def windowBase : Nat := 0x30000000000

/-- The bench and offset of a window address (08 R242): 4 MiB for each bench. -/
def windowOf (a : Nat) : Option (BenchId × Nat) :=
  if a < windowBase then none
  else if h : (a - windowBase) / 0x400000 < 256 then some (⟨(a - windowBase) / 0x400000, h⟩, (a - windowBase) % 0x400000)
  else none

/-! ## Lots -/

/-- The entry of lot `n`; the reset entry admits only hallmark 0 (09 R304). -/
def State.lot (s : State) (n : Nat) : W32 := Sp.get (fun _ => 0#32) s.mem.lots n

/-- Who makes a request: its hallmark, share mask, whether a peer makes it, and the shop whose cache it passes (08 R241). -/
structure Requester where
  hmk : BitVec 12 := 0
  smask : BitVec 16 := 0
  peer : Bool := false
  shop : Option ShopId := none
  deriving DecidableEq, Repr

/-- R306 on a populated lot's entry. -/
def lotAllows (e : W32) (q : Requester) (write : Bool) : Bool :=
  if q.hmk = 0 then true
  else if q.peer && e.getLsbD 28 then false
  else if e.getLsbD 31 then true
  else if q.hmk.toNat = bits e 11 0 then true
  else if e.getLsbD 30 && q.smask.getLsbD (bits e 27 24) then !(write && e.getLsbD 29)
  else false

/-- A refusal is counted, and the first since the last clear is logged (09 R307). -/
def State.logDeny (s : State) (h : BitVec 12) (lot : Nat) (write : Bool) : State :=
  let s := s.satAdd .hmkDenyStat 0 27 16 1
  if s.fld .hmkDenyStat 0 31 31 = 1 then s
  else
    let s := (s.setFld .hmkDenyStat 0 31 31 1).setFld .hmkDenyStat 0 11 0 h.toNat
    (s.setFld .hmkDenyLot 0 31 31 (if write then 1 else 0)).setFld .hmkDenyLot 0 26 0 lot

/-! ## Controllers -/

/-- How a memory access ended at its memory: data (empty for a write), or a Bus error subcause (03 table 3.5). -/
inductive MemOut where
  | ok (data : List Byte)
  | bad (sub : Byte)
  deriving DecidableEq, Repr

/-- Bus error subcauses. -/
def subPoison : Byte := 1
def subDenied : Byte := 2
def subLink : Byte := 3
def subTimeout : Byte := 4

/-- The record source and unit of a channel (13 R425). -/
def chanSrc (c : Nat) : Byte := if c < 128 then 3 else 4
def chanUnit (c : Nat) : BitVec 16 := BitVec.ofNat 16 (if c < 128 then c else c - 128)

/-- The threshold of CORRECTED records for a channel (13 ING_CFG.CETH, YRD_GRPg_CFG.CETH). -/
def State.ceth (s : State) (c : Nat) : Nat :=
  if c < 128 then s.fld .ingCfg 0 15 8 else s.fld .yrdGrpCfg ((c - 128) / 32) 15 8

/-- Counts a corrected error at offset `off` of channel `c`; a CORRECTED record is written once in a shift, when the count has come to CETH
(13 R410, R420, R425). DEDUCED, log 91. -/
def State.countCorrected (s : State) (c off : Nat) : State :=
  let n := Sp.get (fun _ => 0) s.mem.corrected c + 1
  let due := decide (s.ceth c ≠ 0) && decide (s.ceth c ≤ n) && !s.mem.serv.reported.contains c
  let v := s.mem.serv
  let s := { s with mem := { s.mem with
    corrected := Sp.put s.mem.corrected c n
    serv := { v with
      rowErrs := if c < 128 then v.rowErrs ++ [(c, off)] else v.rowErrs
      reported := if due then c :: v.reported else v.reported } } }
  if due then s.record { src := chanSrc c, event := 1, unit_ := chanUnit c, w2 := BitVec.ofNat 64 n } else s

/-- An uncorrected read: the channel's count and an UNCORRECTED record (13 R410). -/
def State.uncorrected (s : State) (a : Nat) (watched : Bool) : State :=
  let c := match s.route a with | some r => r.chan | none => 0
  let s := { s with mem := { s.mem with uncorrected := Sp.put s.mem.uncorrected c (Sp.get (fun _ => 0) s.mem.uncorrected c + 1) } }
  s.record { src := chanSrc c, event := 2, unit_ := chanUnit c, w2 := BitVec.ofNat 64 a, w3 := if watched then 1 else 0 }

/-- The 64-byte line `n` was last written under the watched class. -/
def State.lineWatched (s : State) (n : Nat) : Bool := Sp.get (fun _ => false) s.mem.watched n

/-- The one wrong symbol of 64-byte line `n` is corrected, written back and counted (13 R410). -/
def State.correctLine (s : State) (n : Nat) : State :=
  let s := { s with mem := { s.mem with lineErr := Sp.erase s.mem.lineErr n } }
  match s.route (64 * n) with
  | some r => s.countCorrected r.chan r.off
  | none => s

/-- A guarded read of 64-byte line `n`: a single wrong symbol is corrected; false: beyond correction, or written under the other class (13
R406, R410, 09 R287). -/
def State.readGuarded (s : State) (n : Nat) : State × Bool :=
  if s.lineWatched n then (s, false)
  else
    match Sp.find s.mem.lineErr n with
    | none => (s, true)
    | some .one => (s.correctLine n, true)
    | some .many => (s, false)

/-- A watched read of 128-byte line `n`: the CRC detects and never corrects (13 R406). -/
def State.readWatched (s : State) (n : Nat) : State × Bool :=
  (s, s.lineWatched (2 * n) && s.lineWatched (2 * n + 1) && (Sp.find s.mem.lineErr (2 * n)).isNone
      && (Sp.find s.mem.lineErr (2 * n + 1)).isNone)

/-- Reads the lines from `n` up, `k` of them, through `f`: each is decoded, whatever becomes of the others. -/
def State.readLines (f : State → Nat → State × Bool) : Nat → Nat → State → State × Bool
  | _, 0, s => (s, true)
  | n, k + 1, s =>
    match f s n with
    | (s, ok) =>
      match State.readLines f (n + 1) k s with
      | (s, rest) => (s, ok && rest)

/-- Errors arise in stored lines: a second in one line is beyond correction. -/
def State.arise (s : State) (l : LineFaults) : State :=
  l.foldl (fun s e =>
    let v : LineErr := if e.2 = .one ∧ (Sp.find s.mem.lineErr e.1).isNone then .one else .many
    { s with mem := { s.mem with lineErr := Sp.put s.mem.lineErr e.1 v } }) s

/-- A yard channel that a finished relief has taken out of service (13 R423). -/
def State.outOfService (s : State) (r : Route) : Bool :=
  128 ≤ r.chan &&
    (let g := (r.chan - 128) / 32
     s.fld .yrdGrpStat g 25 25 == 1 && s.fld .yrdGrpStat g 24 19 == (r.chan - 128) % 32 && !r.spread
       && !(match s.mem.serv.relief with | some x => x.g == g | none => false))

/-- A RELIEF_HOLE record (13 R423). -/
def State.reliefHole (s : State) (r : Route) (a : Nat) (write : Bool) : State :=
  s.record { src := 4, event := 8, unit_ := chanUnit r.chan, w2 := BitVec.ofNat 64 a, w3 := if write then 1 else 0 }

/-- A controller's read of `len` bytes at DPA `a`, already admitted (13 R410). -/
def State.ctrlRead (s : State) (a len : Nat) (watched : Bool) : State × MemOut :=
  match s.route a with
  | none => (s, .bad subDenied)
  | some r =>
    if s.outOfService r then (s.reliefHole r a false, .bad subPoison)
    else
      let res :=
        if watched then State.readLines State.readWatched (a / 128) ((a + len - 1) / 128 + 1 - a / 128) s
        else State.readLines State.readGuarded (a / 64) ((a + len - 1) / 64 + 1 - a / 64) s
      match res with
      | (s, true) => (s, .ok (s.mem.dram.bytes id a len))
      | (s, false) => (s.uncorrected a watched, .bad subPoison)

/-- Marks the 64-byte lines from `n`, `k` of them, with the class of a write, and drops their error marks when `clean`. -/
def Mem.markLines (watched clean : Bool) : Nat → Nat → Mem → Mem
  | _, 0, m => m
  | n, k + 1, m =>
    Mem.markLines watched clean (n + 1) k
      { m with
        watched := Sp.set (fun _ => false) m.watched n watched
        lineErr := if clean then Sp.erase m.lineErr n else m.lineErr }

/-- A controller's write at DPA `a`, already admitted. A watched write leaves its whole 128-byte lines watched (13 R406). Error
marks go when the write covers its lines whole (DEDUCED, log 9). -/
def State.ctrlWrite (s : State) (a : Nat) (data : List Byte) (watched : Bool) : State :=
  match s.route a with
  | none => s
  | some r =>
    if s.outOfService r then s.reliefHole r a true
    else
      let unit := if watched then 128 else 64
      let lo := a / unit
      let hi := (a + data.length - 1) / unit
      let whole := a % unit = 0 && (a + data.length) % unit = 0
      let k := unit / 64
      let m := Mem.markLines watched whole (lo * k) ((hi + 1 - lo) * k) s.mem
      { s with mem := { m with dram := m.dram.setBytes id a data } }

/-! ## Bench stores -/

/-- The range [lo, hi) of a stack guard register (03 BEN_SGUARD_M, BEN_SGUARD_J). -/
def State.guardRange (s : State) (k : RegKind) (b : BenchId) : Nat × Nat :=
  (s.fld k b.val 8 0 * 4096, min 512 (s.fld k b.val 25 16) * 4096)

/-- Any of the `len` bytes from offset `off` (modulo 2 MiB) lies in [lo, hi). -/
def hitsRange (off len : Nat) (r : Nat × Nat) : Bool :=
  (List.range len).any fun k => r.1 ≤ (off + k) % 0x200000 && (off + k) % 0x200000 < r.2

/-- A stack guard closes some of these bytes to code of level `pl` (03 R93). -/
def State.guarded (s : State) (b : BenchId) (pl : BitVec 2) (off len : Nat) : Bool :=
  (pl.toNat < 2 && hitsRange off len (s.guardRange .benSguardM b)) ||
    (pl = 0 && hitsRange off len (s.guardRange .benSguardJ b))

/-- A stack guard closes some of these bytes to carters and to the window (03 R93): both ranges. -/
def State.guardedAll (s : State) (b : BenchId) (off len : Nat) : Bool :=
  hitsRange off len (s.guardRange .benSguardM b) || hitsRange off len (s.guardRange .benSguardJ b)

/-- Bench-store addresses wrap at 2 MiB (02 R56). -/
def wrapStore (a : Nat) : Nat := a % 0x200000

/-- Some of these bytes lie in an 8-byte block that reads as poisoned. -/
def Bench.storePoisoned (x : Bench) (off len : Nat) : Bool :=
  x.storeBad.any fun n => (List.range len).any fun k => wrapStore (off + k) / 8 == n

/-- Reads `len` bytes of the bench store. -/
def Bench.readStore (x : Bench) (off len : Nat) : List Byte := x.store.bytes wrapStore off len

/-- Writes bytes of the bench store. A block that a write covers whole is clean again. -/
def Bench.writeStore (x : Bench) (off : Nat) (data : List Byte) : Bench :=
  { x with
    store := x.store.setBytes wrapStore off data
    storeBad := x.storeBad.filter fun n =>
      !((List.range 8).all fun j => (List.range data.length).any fun k => wrapStore (off + k) == 8 * n + j) }

/-- The little-endian value of bytes. -/
def leVal : List Byte → Nat
  | [] => 0
  | v :: r => v.toNat + 256 * leVal r

/-- `n` little-endian bytes of a value. -/
def leBytes : Nat → Nat → List Byte
  | 0, _ => []
  | n + 1, v => BitVec.ofNat 8 v :: leBytes n (v / 256)

/-! ## Requests by DPA -/

/-- A window access is refused in private-store mode, in the upper half, on a guarded range, or by its lot (08 R243, 03 R93). -/
def State.windowRefused (s : State) (q : Requester) (b : BenchId) (off len : Nat) (write : Bool) : Bool :=
  !(s.bench b).openStore || 0x200000 ≤ off || s.guardedAll b off len
    || !lotAllows (s.lot (0x180000 + 2 * b.val)) q write

/-- The lot of a DPA (09 R303). -/
def lotOf (a : Nat) : Nat := a / 0x200000

/-- R306 for a DPA of the ingot or yard; an unpopulated one denies every request (09 R274). -/
def State.dramAllows (s : State) (q : Requester) (a : Nat) (write : Bool) : Bool :=
  (s.route a).isSome && lotAllows (s.lot (lotOf a)) q write

/-- The channel of a DPA, if its stack is in self-refresh (13 R414). -/
def State.sleeps (s : State) (a : Nat) : Option Nat :=
  if (windowOf a).isSome then none
  else
    match s.route a with
    | some r => if r.chan < 128 && s.mem.serv.selfRef.any fun x => x.val == r.chan / 8 then some r.chan else none
    | none => none

/-- The queue of a channel in self-refresh holds 128 requests: a further one waits with its requester (13 R414). -/
def State.chanFull (s : State) (c : Nat) : Bool := 128 ≤ (s.held.filter fun h => h.chan == c).length

/-- A request joins the queue of channel `c`. -/
def State.holdAt (s : State) (c : Nat) (w : HeldWhat) : State := { s with held := s.held ++ [⟨c, w⟩] }

/-- The lines of a shop's cache. -/
def State.shopCache (s : State) (c : ShopId) : List ShopLine := Sp.get (fun _ => []) s.mem.shopCaches c.val

/-- Replaces the lines of a shop's cache, newest first, at most 65,536 (8 MiB of 128-byte lines). -/
def State.setShopCache (s : State) (c : ShopId) (l : List ShopLine) : State :=
  { s with mem := { s.mem with shopCaches := Sp.put s.mem.shopCaches c.val (l.take 65536) } }

/-- The line of a DPA that the requester's shop cache holds. -/
def State.shopHit (s : State) (q : Requester) (a : Nat) : Option ShopLine :=
  q.shop.bind fun c => (s.shopCache c).find? fun l => l.line = a / 128

/-- The channel whose self-refresh a read of DPA `a` meets: one that its shop cache serves meets none. -/
def State.readSleeps (s : State) (q : Requester) (a : Nat) : Option Nat := if (s.shopHit q a).isSome then none else s.sleeps a

/-- Reads `len` bytes at DPA `a`: through the window of a bench, through the requester's shop cache, or at the controller
(08 R241-R243, 09 R306, R307, 13 R410). `fill`: the shop cache may install the line (08 R262). -/
def State.dpaRead (s : State) (q : Requester) (a len : Nat) (watched : Bool) (fill : Bool := true) : State × MemOut :=
  match windowOf a with
  | some (b, off) =>
    if s.windowRefused q b off len false then (s.logDeny q.hmk (lotOf a) false, .bad subDenied)
    else if (s.bench b).storePoisoned off len then (s, .bad subPoison)
    else (s, .ok ((s.bench b).readStore off len))
  | none =>
    if !s.dramAllows q a false then (s.logDeny q.hmk (lotOf a) false, .bad subDenied)
    else
      match q.shop with
      | none => s.ctrlRead a len watched
      | some c =>
        match (s.shopCache c).find? fun l => l.line = a / 128 with
        | some l => (s, .ok ((l.data.drop (a % 128)).take len))
        | none =>
          match s.ctrlRead a len watched with
          | (s, .bad e) => (s, .bad e)
          | (s, .ok d) =>
            if !fill then (s, .ok d)
            else
            match s.ctrlRead (a / 128 * 128) 128 watched with
            | (s', .ok line) => (s'.setShopCache c (⟨a / 128, line⟩ :: s'.shopCache c), .ok d)
            | (_, .bad _) => (s, .ok d)

/-- Overwrites bytes of a cached line from offset `off`. -/
def overwrite (line : List Byte) (off : Nat) (data : List Byte) : List Byte :=
  line.take off ++ data ++ line.drop (off + data.length)

/-- Writes bytes at DPA `a` (as `dpaRead`). The requester's shop cache updates a line it holds (08 R241). -/
def State.dpaWrite (s : State) (q : Requester) (a : Nat) (data : List Byte) (watched : Bool) : State × MemOut :=
  match windowOf a with
  | some (b, off) =>
    if s.windowRefused q b off data.length true then (s.logDeny q.hmk (lotOf a) true, .bad subDenied)
    else (s.updBench b fun x => x.writeStore off data, .ok [])
  | none =>
    if !s.dramAllows q a true then (s.logDeny q.hmk (lotOf a) true, .bad subDenied)
    else
      let s := s.ctrlWrite a data watched
      match q.shop with
      | none => (s, .ok [])
      | some c =>
        (s.setShopCache c ((s.shopCache c).map fun l =>
          if l.line = a / 128 then { l with data := overwrite l.data (a % 128) data } else l), .ok [])

/-- The peer memory key of a peer's DPA. -/
def peerKey (p : PeerId) (a : Nat) : Nat := p.toNat * 0x1000000000000 + a

end Sys2Proof.Machine
end

