-- ==== Sys2Proof/Machine/Translate.lean ====
section
/-! DEFINITION. Translation (09): contexts, the walk, the caches of table 9.6 and the joined-fault table. -/

namespace Sys2Proof.Machine

/-! ## Entries -/

/-- Bits [hi:lo] of a 64-bit word. -/
def wbits (w : W64) (hi lo : Nat) : Nat := w.toNat / 2 ^ lo % 2 ^ (hi + 1 - lo)

/-- Subcauses of Translation fault (09 table 9.7). -/
def subNotMapped : Byte := 1
def subNoRead : Byte := 2
def subNoWrite : Byte := 3
def subMalformed : Byte := 4
def subSizeMismatch : Byte := 5
def subTableDenied : Byte := 6
def subNoncanon : Byte := 7
def subNoContext : Byte := 8
def subHostOff : Byte := 9

/-- A valid entry has a non-zero reserved bit (09 table 9.4). -/
def pteReserved (e : W64) : Bool :=
  if e.getLsbD 1 then
    (wbits e 63 52 != 0 && wbits e 5 4 != 2) || (wbits e 51 48 != 0 && wbits e 5 4 != 1) || wbits e 15 10 != 0
  else wbits e 63 48 != 0 || wbits e 14 2 != 0

/-- Pages of 64 KiB in a leaf's page: 1, 32 or 16,384 (09 table 9.5). -/
def pteSpan (sz : Nat) : Nat := if sz = 0 then 1 else if sz = 1 then 32 else 16384

/-- The target address of a leaf (09 table 9.4). -/
def pteAddr (e : W64) : Nat := if wbits e 5 4 = 1 then wbits e 51 16 * 65536 else wbits e 47 16 * 65536

/-- A leaf is malformed at level `lvl` (09 R281): size, target, class or alignment. -/
def leafMalformed (e : W64) (lvl : Nat) : Bool :=
  !((lvl = 2 && wbits e 3 2 = 2) || (lvl = 3 && wbits e 3 2 ≤ 1)) || wbits e 5 4 = 3 || wbits e 9 8 > 1
    || pteAddr e % (pteSpan (wbits e 3 2) * 65536) != 0

/-! ## Who translates -/

/-- The numbers of the caches that serve an engine, nearest first (09 table 9.6). -/
def engineCaches : Engine → List Nat
  | .core b => [b.val, 816 + b.val / 16]
  | .lathe b => [b.val, 816 + b.val / 16]
  | .ladle b => [256 + 2 * b.val + 1, 816 + b.val / 16]
  | .carter (.bench c) => [256 + c.val, 816 + c.val / 32]
  | .carter (.shop c) => [768 + c.val, 816 + c.val / 2]
  | .carter (.link c) => [800 + c.val, 832 + c.val / 4]
  | .quarter q => [832 + q.val]

/-- The capacity of a cache (09 table 9.6). -/
def cacheSize (n : Nat) : Nat := if n < 256 then 64 else if n < 816 then 8 else if n < 832 then 1024 else 512

/-- RQK and RQID of a fault record (09 table 9.8). DEDUCED, log 50. -/
def engineId : Engine → Nat × Nat
  | .core b => (0, b.val)
  | .lathe b => (1, b.val)
  | .ladle b => (2, 2 * b.val + 1)
  | .carter (.bench c) => (2, c.val)
  | .carter (.shop c) => (3, c.val)
  | .carter (.link c) => (4, c.val)
  | .quarter q => (4, 16 + q.val)

/-- The shop whose cache an engine's requests pass (08 R241): none for link carters and the alloy engine. -/
def engineShop : Engine → Option ShopId
  | .core b => some (shopOf b)
  | .lathe b => some (shopOf b)
  | .ladle b => some (shopOf b)
  | .carter (.bench c) => some ⟨c.val / 32, by omega⟩
  | .carter (.shop c) => some ⟨c.val / 2, by omega⟩
  | .carter (.link _) => none
  | .quarter _ => none

/-- RMW, read or write as the record codes it (09 table 9.8). -/
def accCode : Acc → Nat
  | .read => 1
  | .write => 2
  | .rmw => 3

/-! ## Contexts (09 R275, R277) -/

/-- XLT_HCT_BASE. -/
def State.hctBase (s : State) : Nat := s.fld .xltHctBaseHi 0 15 0 * 0x100000000 + s.fld .xltHctBaseLo 0 31 17 * 0x20000

/-- A 64-bit word that the translation unit reads in the ingot or yard under hallmark `h`: none when it is denied, unpopulated
or poisoned. A refusal is counted, that of an unpopulated DPA too (R274, R307). DEDUCED, log 48. -/
def State.tableWord (s : State) (h : BitVec 12) (smask : BitVec 16) (a : Nat) : State × Option W64 :=
  if !s.dramAllows { hmk := h, smask } a false then
    (s.logDeny h (lotOf a) false, none)
  else
    match s.ctrlRead a 8 false with
    | (s, .ok d) => (s, some (BitVec.ofNat 64 (leVal d)))
    | (s, .bad _) => (s, none)

/-- Descriptor words 0 and 1 of hallmark `h`, cached when read; none: TABLE_DENIED (09 R275). -/
def State.context (s : State) (h : BitVec 12) : State × Option (W64 × W64) :=
  match s.xlat.contexts.find? fun c => c.1 = h with
  | some c => (s, some c.2)
  | none =>
    match s.tableWord 0 0 (s.hctBase + 32 * h.toNat) with
    | (s, none) => (s, none)
    | (s, some w0) =>
      match s.tableWord 0 0 (s.hctBase + 32 * h.toNat + 8) with
      | (s, none) => (s, none)
      | (s, some w1) => ({ s with xlat := { s.xlat with contexts := (h, w0, w1) :: s.xlat.contexts } }, some (w0, w1))

/-- The share mask of a hallmark's cached context (09 table 9.3). -/
def State.smaskOf (s : State) (h : BitVec 12) : BitVec 16 :=
  match s.xlat.contexts.find? fun c => c.1 = h with
  | some c => BitVec.ofNat 16 (wbits c.2.2 15 0)
  | none => 0

/-- The owning function of a hallmark, as its descriptor names it; 0 when it cannot be read. DEDUCED, log 49. -/
def State.fnOf (s : State) (h : BitVec 12) : BitVec 6 :=
  match (s.context h).2 with
  | some (_, w1) => BitVec.ofNat 6 (wbits w1 21 16)
  | none => 0

/-- The state of function `f`. -/
def State.fn (s : State) (f : Nat) : Fn := Sp.get (fun _ => ({} : Fn)) s.fns f

/-- Changes function `f`. -/
def State.updFn (s : State) (f : Nat) (g : Fn → Fn) : State := { s with fns := Sp.put s.fns f (g (s.fn f)) }

/-! ## The walk (09 R281) -/

/-- A walk's result: a leaf with its page, or a subcause. -/
inductive Walked where
  | leaf (e : W64) (page pages : Nat)
  | fault (sub : Byte)
  deriving DecidableEq, Repr

/-- The checks on the leaf that decides: HOST_OFF, NO_READ, NO_WRITE, in that order (09 R281). -/
def State.leafChecks (s : State) (w1 : W64) (e : W64) (acc : Acc) : Option Byte :=
  if wbits e 5 4 = 1 && !(s.fn (wbits w1 21 16)).busMaster then some subHostOff
  else if acc ≠ .write ∧ !e.getLsbD 6 then some subNoRead
  else if acc ≠ .read ∧ !e.getLsbD 7 then some subNoWrite
  else none

/-- A valid leaf `e` found at index `idx` of table `tbl`: the first entry of its group decides (09 R280, R281). -/
def State.walkLeaf (s : State) (h : BitVec 12) (smask : BitVec 16) (w1 : W64) (d : Nat) (acc : Acc) (tbl idx lvl : Nat)
    (e : W64) : State × Walked :=
  if leafMalformed e lvl then (s, .fault subMalformed)
  else
    let sz := wbits e 3 2
    let g := if lvl = 3 then 32 else 4
    let page := d / 65536 / pteSpan sz * pteSpan sz
    let done (s : State) (e : W64) : State × Walked :=
      match s.leafChecks w1 e acc with
      | some sub => (s, .fault sub)
      | none => (s, .leaf e page (pteSpan sz))
    if sz = 0 ∨ idx % g = 0 then done s e
    else
      match s.tableWord h smask (tbl + 8 * (idx - idx % g)) with
      | (s, none) => (s, .fault subTableDenied)
      | (s, some f) =>
        if !f.getLsbD 0 || !f.getLsbD 1 || wbits f 3 2 ≠ sz then (s, .fault subSizeMismatch)
        else if pteReserved f || wbits f 5 4 = 3 || wbits f 9 8 > 1 || pteAddr f % (pteSpan sz * 65536) ≠ 0 then
          (s, .fault subMalformed)
        else done s f

/-- The entry at level `lvl` for DVA `d`: from the walk cache when it holds a non-leaf one (09 R282), else from its table. -/
def State.walkEntry (s : State) (h : BitVec 12) (smask : BitVec 16) (tbl d lvl : Nat) : State × Option W64 :=
  match s.xlat.walks.find? fun w => w.hmk = h ∧ w.lvl = lvl ∧ w.prefix_ = d / 2 ^ (52 - 12 * lvl) with
  | some w => (s, some w.entry)
  | none => s.tableWord h smask (tbl + 8 * (d / 2 ^ (52 - 12 * lvl) % 4096))

/-- Levels `lvl` to 3 of the walk; `n` is the number of levels left. -/
def State.walkFrom (h : BitVec 12) (smask : BitVec 16) (w1 : W64) (d : Nat) (acc : Acc) :
    Nat → Nat → State → State × Walked
  | 0, _, s => (s, .fault subMalformed)
  | n + 1, tbl, s =>
    let lvl := 3 - n
    match s.walkEntry h smask tbl d lvl with
    | (s, none) => (s, .fault subTableDenied)
    | (s, some e) =>
      if !e.getLsbD 0 then (s, .fault subNotMapped)
      else if pteReserved e || (!e.getLsbD 1 && lvl = 3) then (s, .fault subMalformed)
      else if e.getLsbD 1 then s.walkLeaf h smask w1 d acc tbl (d / 2 ^ (52 - 12 * lvl) % 4096) lvl e
      else
        let p := d / 2 ^ (52 - 12 * lvl)
        let keep := s.xlat.walks.filter fun w => !(w.hmk = h ∧ w.lvl = lvl ∧ w.prefix_ = p)
        let s := { s with xlat := { s.xlat with walks := (⟨h, lvl, p, e⟩ :: keep).take 512 } }
        State.walkFrom h smask w1 d acc n (wbits e 47 15 * 32768) s

/-- The walk for hallmark `h`, DVA `d` and access kind `acc` (09 R281). -/
def State.walk (s : State) (h : BitVec 12) (dva : W64) (acc : Acc) : State × Walked :=
  let d := dva.toNat
  if d / 2 ^ 52 ≠ 0 then (s, .fault subNoncanon)
  else
    match s.context h with
    | (s, none) => (s, .fault subTableDenied)
    | (s, some (w0, w1)) =>
      if !w0.getLsbD 63 then (s, .fault subNoContext)
      else State.walkFrom h (BitVec.ofNat 16 (wbits w1 15 0)) w1 d acc 3 (wbits w0 47 15 * 32768) s

/-! ## Caches -/

/-- The leaves in cache `n`. -/
def State.tcache (s : State) (n : Nat) : List TEntry := Sp.get (fun _ => []) s.xlat.caches n

/-- A cached leaf that covers the page and admits the access. -/
def TEntry.serves (t : TEntry) (h : BitVec 12) (page : Nat) (acc : Acc) : Bool :=
  t.hmk = h && t.page ≤ page && page < t.page + t.pages && (acc = .write || t.leaf.getLsbD 6)
    && (acc = .read || t.leaf.getLsbD 7)

/-- Puts a leaf into each of the caches, newest first, within their capacities. -/
def State.fillCaches (s : State) (t : TEntry) : List Nat → State
  | [] => s
  | n :: r =>
    State.fillCaches
      { s with xlat := { s.xlat with caches := Sp.put s.xlat.caches n ((t :: s.tcache n).take (cacheSize n)) } } t r

/-- Removes from every cache the leaves that satisfy `p`. -/
def State.purgeCaches (s : State) (p : TEntry → Bool) : State :=
  { s with xlat := { s.xlat with caches := s.xlat.caches.map fun c => (c.1, c.2.filter fun t => !p t) } }

/-! ## The joined-fault table (09 R290-R297) -/

/-- Entry `n` of the joined-fault table. -/
def State.fault (s : State) (n : Nat) : FaultEntry := Sp.get (fun _ => ({} : FaultEntry)) s.xlat.faults n

/-- Replaces entry `n`. -/
def State.setFault (s : State) (n : Nat) (e : FaultEntry) : State :=
  { s with xlat := { s.xlat with faults := Sp.put s.xlat.faults n e } }

/-- The used entry of a (hallmark, page) pair. -/
def State.faultMatch (s : State) (h : BitVec 12) (page : Nat) : Option Nat :=
  (s.xlat.faults.find? fun e => e.2.used && e.2.hmk = h && e.2.page = page).map (·.1)

/-- The free entries. -/
def State.freeFaults (s : State) : List Nat := (List.range 256).filter fun n => !(s.fault n).used

/-- Entries that function `f` holds (09 R293). -/
def State.faultsHeld (s : State) (f : BitVec 6) : Nat := (s.xlat.faults.filter fun e => e.2.used && e.2.fn = f).length

/-- The quota of function `f` (09 XLT_FQUOTA): PFQ 0xFF means 256. -/
def State.faultQuota (s : State) (f : BitVec 6) : Nat :=
  if f = 0 then (if s.fld .xltFquota 0 7 0 = 0xFF then 256 else s.fld .xltFquota 0 7 0) else s.fld .xltFquota 0 16 8

/-- How a translation ends. -/
inductive TrOut where
  | ok (g : Way)
  /-- The engine waits on an entry of the joined-fault table. -/
  | wait (entry : Nat)
  /-- The engine waits for a free entry or quota, without a record (09 R293). -/
  | quota
  /-- Translation fault at once, with its subcause (09 R289). -/
  | fault (sub : Byte)
  deriving DecidableEq, Repr

/-- A faulting walk takes a free entry (09 R290): generation, purge, record, waiter. Which free entry is a free value. The misses
of the same pair that wait without a record join the entry (R293). -/
def State.formFault (s : State) (eng : Engine) (h : BitVec 12) (dva : W64) (acc : Acc) (sub : Byte) : State × TrOut :=
  let f := s.fnOf h
  let free := s.freeFaults
  match free with
  | [] => ({ s with xlat := { s.xlat with quota := s.xlat.quota ++ [⟨eng, h, dva, acc⟩] } }, .quota)
  | n0 :: _ =>
    if s.faultsHeld f ≥ s.faultQuota f then
      ({ s with xlat := { s.xlat with quota := s.xlat.quota ++ [⟨eng, h, dva, acc⟩] } }, .quota)
    else
      let n := free.getD (Config.faultEntry s.draws % free.length) n0
      let page := dva.toNat / 65536
      let gen := (s.fault n).gen + 1
      let id := engineId eng
      let rec_ : FaultRec :=
        { w0 := BitVec.ofNat 64 (page * 65536 + gen.toNat * 256 + n)
          w1 := BitVec.ofNat 64 (h.toNat * 2 ^ 48 + sub.toNat * 2 ^ 40 + accCode acc * 2 ^ 36 + id.1 * 2 ^ 32 + id.2 * 2 ^ 16)
          w2 := dva
          stamp := Config.fStamp (s.draws + 1) }
      let s := (s.drawn).drawn
      let s := s.purgeCaches fun t => t.hmk = h && t.page ≤ page && page < t.page + t.pages
      let s := { s with xlat := { s.xlat with
        walks := s.xlat.walks.filter fun w => !(w.hmk = h && w.prefix_ = page / 2 ^ (36 - 12 * w.lvl)) } }
      let same (q : QuotaWait) : Bool := q.hmk = h && q.dva.toNat / 65536 = page
      let joins := s.xlat.quota.filter same
      let s := s.setFault n
        { used := true, gen, hmk := h, page, sub, join := BitVec.ofNat 8 (min 0xFF (1 + joins.length)), fn := f
          waiters := (eng, dva) :: joins.map fun q => (q.engine, q.dva) }
      ({ s with xlat := { s.xlat with
          quota := s.xlat.quota.filter fun q => !same q
          fltq := Sp.put s.xlat.fltq f.toNat (Sp.get (fun _ => []) s.xlat.fltq f.toNat ++ [rec_]) } }, .wait n)

/-- A miss whose pair matches a used entry joins it (09 R291). -/
def State.joinFault (s : State) (eng : Engine) (dva : W64) (n : Nat) : State :=
  let e := s.fault n
  s.setFault n { e with join := if e.join = 0xFF then 0xFF else e.join + 1, waiters := e.waiters ++ [(eng, dva)] }

/-- The target of DVA `d` under leaf `e` (09 R283-R285), for the hallmark whose descriptor word 1 is `w1`: a host request carries the
requester ID of FN and, with PE = 1, the PASID (R284). A peer that is this device is served locally. -/
def State.leafTarget (s : State) (w1 e : W64) (page pages : Nat) (dva : W64) : Target :=
  let a := pteAddr e + (dva.toNat - page * 65536) % (pages * 65536)
  if wbits e 5 4 = 0 then .dpa a
  else if wbits e 5 4 = 1 then
    .host (BitVec.ofNat 6 (wbits w1 21 16)) (if w1.getLsbD 63 then some (BitVec.ofNat 20 (wbits w1 51 32)) else none) a
  else if wbits e 63 52 = s.fld .dryId 0 11 0 then .dpa a
  else .peer (BitVec.ofNat 12 (wbits e 63 52)) a

/-- Descriptor word 1 of a hallmark's cached context. -/
def State.ctxWord (s : State) (h : BitVec 12) : W64 := ((s.xlat.contexts.find? fun c => c.1 = h).map (·.2.2)).getD 0

/-- What a request for DVA `dva` gets from the leaf `t` (09 R283-R285, R298). -/
def State.wayOf (s : State) (h : BitVec 12) (t : TEntry) (dva : W64) : Way :=
  { target := s.leafTarget (s.ctxWord h) t.leaf t.page t.pages dva, smask := s.smaskOf h
    watched := wbits t.leaf 9 8 == 1, epoch := t.epoch }

/-- Translation of a DVA for an engine. A cached host leaf meets HOST_OFF too (09 R284). `record` is false for a
first-fault gather's later elements: a fault then forms no entry and joins none (04 R150). DEDUCED, log 46. -/
def State.translate (s : State) (eng : Engine) (h : BitVec 12) (dva : W64) (acc : Acc) (record : Bool := true) :
    State × TrOut :=
  let page := dva.toNat / 65536
  match (engineCaches eng).findSome? fun n => (s.tcache n).find? fun t => t.serves h page acc with
  | some t =>
    let s := (s.context h).1
    if wbits t.leaf 5 4 = 1 && !(s.fn (s.fnOf h).toNat).busMaster then (s, .fault subHostOff)
    else (s, .ok (s.wayOf h t dva))
  | none =>
    match s.faultMatch h page with
    | some n => if record then (s.joinFault eng dva n, .wait n) else (s, .fault (s.fault n).sub)
    | none =>
      match s.walk h dva acc with
      | (s, .leaf e pg n) =>
        let t : TEntry := ⟨h, pg, n, e, s.xlat.epoch⟩
        let s := s.fillCaches t (engineCaches eng)
        (s, .ok (s.wayOf h t dva))
      | (s, .fault sub) =>
        if !record || subNoncanon ≤ sub then (s, .fault sub) else s.formFault eng h dva acc sub

/-- The peer of a target, if it is on one. -/
def Target.peer? : Target → Option PeerId
  | .peer p _ => some p
  | _ => none

/-- The function under whose requester ID a target is reached, if it is in host memory. -/
def Target.fn? : Target → Option (BitVec 6)
  | .host f _ _ => some f
  | _ => none

/-- The target of a piece. -/
def Piece.target (p : Piece) : Target := p.way.target

/-- The 64 KiB page of a request. -/
def Flight.page (f : Flight) : Nat := f.dva.toNat / 65536

/-- A request of an engine enters flight (09 R298). -/
def State.fly (s : State) (f : Flight) : State := { s with xlat := { s.xlat with flights := s.xlat.flights ++ [f] } }

/-- The requests of an engine that satisfy `p` have ended, and responses to them are not awaited. -/
def State.landWho (s : State) (p : Asker → Bool) : State :=
  let held (h : Held) : Held :=
    match h.what with
    | .reply r => if p r.flight.who then { h with what := .write } else h
    | _ => h
  { s with
    held := s.held.map held
    xlat := { s.xlat with
      flights := s.xlat.flights.filter fun f => !p f.who, replies := s.xlat.replies.filter fun r => !p r.flight.who } }

/-- An engine's requests have ended. -/
def State.land (s : State) (eng : Engine) : State := s.landWho fun w => w.eng == eng

/-- An engine leaves every list of waiting engines (09 R292). -/
def State.withdraw (s : State) (eng : Engine) : State :=
  { s with xlat := { s.xlat with
      faults := s.xlat.faults.map fun e => (e.1, { e.2 with waiters := e.2.waiters.filter fun w => w.1 != eng })
      quota := s.xlat.quota.filter fun q => q.engine != eng } }

/-- An error record about hallmark `h` (12 R389). -/
def State.recordHmk (s : State) (h : BitVec 12) (r : ErrRec) : State := s.record { r with hmk := h, fn := s.fnOf h }

/-- Such a record whose function discards it (12 R396): the PF's ring alone takes it, unless that is the function's. -/
def State.recordPf (s : State) (h : BitVec 12) (r : ErrRec) : State :=
  if s.fnOf h = 0 then s
  else if s.ready then s.pushRec 0 { r with hmk := h, fn := s.fnOf h }
  else s

end Sys2Proof.Machine
end

