-- ==== Sys2Proof/Machine/Link.lean ====
section
/-! DEFINITION. The dray ports' link layer, packets, and the routes by which this device sends them (14 R427-R438). -/

namespace Sys2Proof

/-! ## Packets and flits (R427, R429) -/

/-- DLEN: the data take no unit, or 64, 128 or 256 bytes; the operand of an ATOMIC is no data. -/
def Packet.dlen (k : Packet) : BitVec 2 :=
  if k.type = 2 || k.data.isEmpty then 0 else if k.data.length ≤ 64 then 1 else if k.data.length ≤ 128 then 2 else 3

/-- Word 0 of the route unit (14 table 14.2). -/
def Packet.route (k : Packet) : W64 := k.type ++ k.layer ++ k.hop ++ k.dlen ++ 0#5 ++ k.src ++ k.dst ++ k.path

/-- Word 1: CID and reason for alloy and distress packets, the sequence number for chimes. -/
def Packet.word1 (k : Packet) : W64 :=
  match k.body with
  | .chime seq .. => seq.setWidth 64
  | .chimeAck seq _ => seq.setWidth 64
  | .hello h => h.cid.setWidth 64
  | .block cid .. => cid.setWidth 64
  | .distress cid _ why => (why ++ cid).setWidth 64
  | _ => 0

/-- The tag of a request. -/
def Packet.tag (k : Packet) : Nat :=
  match k.body with
  | .req u => u.tag
  | _ => 0

/-- The header of a flit (14 table 14.1). -/
def Flit.header (f : Flit) : W32 := f.seq ++ f.ack ++ BitVec.ofBool f.nak ++ BitVec.ofBool f.idle ++ 0#6

/-- The codeword of byte `i` of a flit: of bytes 0 to 519 number i mod 4; each has 6 bytes of the parity. -/
def codeword (i : Nat) : Nat := if i < 520 then i % 4 else (i - 520) / 6

/-- A flit is good when each codeword has at most 3 wrong symbols, which are corrected (R427). DEDUCED, log 154. -/
def Flit.good (f : Flit) : Bool := [0, 1, 2, 3].all fun c => (f.wrong.eraseDups.filter fun i => codeword i == c).length ≤ 3

end Sys2Proof

namespace Sys2Proof.Machine

/-! ## Ports -/

/-- Port `p`. -/
def State.port (s : State) (p : Nat) : Port := Sp.get (fun _ => ({} : Port)) s.dray.ports p

/-- Changes port `p`. -/
def State.updPort (s : State) (p : Nat) (f : Port → Port) : State :=
  { s with dray := { s.dray with ports := Sp.put s.dray.ports p (f (s.port p)) } }

/-- A record of port `p`. -/
def State.portRec (s : State) (p : Nat) (event : BitVec 16) (w2 w3 : Nat) : State :=
  s.record { src := 5, event, unit_ := BitVec.ofNat 16 p, w2 := BitVec.ofNat 64 w2, w3 := BitVec.ofNat 64 w3 }

/-- DRY_PORTp_STAT.STATE: 0 DOWN, 1 TRAINING, 2 UP, 3 FENCED. -/
def State.portState (s : State) (p : Nat) : Nat := s.fld .dryPortStat p 29 28

/-- Sets DRY_PORTp_STAT.STATE. -/
def State.setPortState (s : State) (p x : Nat) : State := s.setFld .dryPortStat p 29 28 x

/-- The port sends and receives flits. -/
def State.portRuns (s : State) (p : Nat) : Bool := 2 ≤ s.portState p

/-! ## Packets (R427, R429) -/

/-- The class of a packet type: REQ, RSP, BELL, ALLOY, CTRL (14 table 14.3). -/
def packetClass (t : BitVec 4) : Nat :=
  match t.toNat with
  | 0 | 1 | 2 => 0
  | 3 => 1
  | 4 | 5 => 2
  | 6 | 7 => 3
  | _ => 4

/-- Units of 16 bytes that a packet takes: its route unit, its request unit, its operand or data. -/
def packetUnits (k : Packet) : Nat :=
  1 + (if k.type.toNat ≤ 3 then 1 else 0) + (if k.type = 2 then 1 else [0, 4, 8, 16].getD k.dlen.toNat 0)

/-- The place of a class and layer in a port's credits. -/
def creditKey (cls layer : Nat) : Nat := 4 * cls + layer

/-! ## Sending (R428, R430) -/

/-- The port sends a flit: it takes the next SEQ, carries the ACK and a NAK that is due, and stays in the replay buffer. -/
def State.sendFlit (s : State) (p : PortId) (cont : Nat) (payload : List Packet) : State :=
  let x := s.port p.val
  let f : Flit := { seq := x.seq, ack := x.last, nak := x.nak, idle := decide (cont = 0) && payload.isEmpty, cont, payload }
  (s.updPort p.val fun x => { x with seq := x.seq + 1, nak := false, replay := x.replay ++ [f] }).emit (.flit p f)

/-- The port runs, and its replay buffer has room for a flit. -/
def State.flitRoom (s : State) (p : Nat) : Bool := s.portRuns p && decide ((s.port p).replay.length < 256)

/-- Packet `k` may start: credits for every unit. A CTRL packet needs no credit; a FENCED port carries CTRL packets alone (R430, R432). -/
def State.maySend (s : State) (p : Nat) (k : Packet) : Bool :=
  let c := packetClass k.type
  (s.portState p == 2 || (s.portState p == 3 && c == 4))
    && (c == 4 || decide (packetUnits k ≤ Sp.get (fun _ => 0) (s.port p).credits (creditKey c k.layer.toNat)))

/-- Packet `k` starts: it leaves the queue and takes its credits. -/
def State.beginPacket (s : State) (p : Nat) (k : Packet) : State :=
  let c := packetClass k.type
  let key := creditKey c k.layer.toNat
  s.updPort p fun (x : Port) =>
    { x with
      queue := x.queue.erase k
      credits := if c = 4 then x.credits else Sp.put x.credits key (Sp.get (fun _ => 0) x.credits key - packetUnits k) }

/-- The packets of the list that start in a flit with `room` units left, and the units of the last that are still to come: packets of one
class and layer keep their order, and none of them waits for another's. -/
def State.takePackets (p : Nat) (stuck : List Nat) (room : Nat) : List Packet → State → State × List Packet × Nat
  | [], s => (s, [], 0)
  | k :: r, s =>
    let key := creditKey (packetClass k.type) k.layer.toNat
    if room = 0 then (s, [], 0)
    else if stuck.contains key || !s.maySend p k then State.takePackets p (key :: stuck) room r s
    else
      let n := packetUnits k
      let s := s.beginPacket p k
      if room < n then (s, [k], n - room)
      else
        match State.takePackets p stuck (room - n) r s with
        | (s, l, rest) => (s, k :: l, rest)

/-- At most `n` flits with payload leave the port. -/
def State.pumpFlits (p : PortId) : Nat → State → State
  | 0, s => s
  | n + 1, s =>
    let x := s.port p.val
    if !s.flitRoom p.val then s
    else
      let cont := min 32 x.rest
      match s.takePackets p.val [] (32 - cont) x.queue with
      | (t, l, rest) =>
        if cont = 0 ∧ l.isEmpty then s
        else State.pumpFlits p n ((t.updPort p.val fun y => { y with rest := x.rest - cont + rest }).sendFlit p cont l)

/-- The queue of a port goes on. -/
def State.pump (s : State) (p : PortId) : State := State.pumpFlits p ((s.port p.val).queue.length + 1) s

/-- Puts a packet into a port's send queue. A port that drains admits none (R433). -/
def State.enqueuePacket (s : State) (p : PortId) (k : Packet) : State :=
  if s.fld .dryPortStat p.val 31 31 = 1 then s else (s.updPort p.val fun x => { x with queue := x.queue ++ [k] }).pump p

/-- A CREDIT packet to the far end of a port (R430). -/
def State.sendCredit (s : State) (p : PortId) (cls : Fin 5) (layer : Fin 4) (units : Nat) : State :=
  s.enqueuePacket p
    { type := 9, src := BitVec.ofNat 12 (s.fld .dryId 0 11 0), dst := BitVec.ofNat 12 (s.fld .dryPortStat p.val 23 12), path := 0xFFFFFF
      body := .credit cls layer units }

/-- A packet leaves its receive buffer, and its credits return. CTRL packets need none (R430). -/
def State.takeRx (s : State) (p : PortId) (k : Packet) : State :=
  let s := s.updPort p.val fun x => { x with rx := x.rx.erase k }
  let c := packetClass k.type
  if c = 4 then s else s.sendCredit p ⟨c % 5, by omega⟩ ⟨k.layer.toNat, by omega⟩ (packetUnits k)

/-- The oldest received packet that satisfies `f` leaves its receive buffer (R430). -/
def State.unload (s : State) (f : Packet → Bool) : State :=
  match (List.finRange 12).findSome? fun p => ((s.port p.val).rx.find? f).map fun k => (p, k) with
  | none => s
  | some (p, k) => s.takeRx p k

/-! ## Routes (R434, R437) -/

/-- This device's peer id. -/
def State.ownPeer (s : State) : PeerId := BitVec.ofNat 12 (s.fld .dryId 0 11 0)

/-- DRY_RT_PRI or DRY_RT_ALT of a peer, as applied. -/
def State.route_ (s : State) (alt : Bool) (p : PeerId) : W32 :=
  Sp.get (fun _ => 0x00FFFFFF#32) (if alt then s.dray.alt else s.dray.pri) p.toNat

/-- Output port of hop `k` of a path: 15 ends it. -/
def pathNibble (path : BitVec 24) (k : Nat) : Nat := path.toNat / 2 ^ (4 * k) % 16

/-- A malformed entry: a nibble of 12 to 14 before the end, no hop, or more than three DL bits (14 R434, R435). -/
def routeMalformed (e : W32) : Bool :=
  let path := e.setWidth 24
  let hops := ((List.range 6).map (pathNibble path)).takeWhile (· != 15)
  hops.isEmpty || hops.any (fun n => 12 ≤ n) || 3 < ((List.range 6).filter fun k => e.getLsbD (24 + k)).length

/-- The port of the entry's first hop. -/
def firstPort (e : W32) : Nat := pathNibble (e.setWidth 24) 0

/-- The port is not DOWN, FENCED or disabled (R437): packets that come while it trains wait (R431). -/
def State.portLive (s : State) (o : Nat) : Bool :=
  (s.portState o == 1 || s.portState o == 2) && s.fld .dryPortStat o 31 31 == 0 && s.fld .dryPortCfg o 31 31 == 1

/-- An entry has a valid path whose first port is live. -/
def State.entryUp (s : State) (e : W32) : Bool := e.getLsbD 31 && !routeMalformed e && s.portLive (firstPort e)

/-- A failover or a return is due (R437): the primary's hop-0 port is DOWN, FENCED or disabled, and AV is 1; or that port is UP again. -/
def State.failoverDue (s : State) (p : PeerId) : Bool :=
  let o := firstPort (s.route_ false p)
  if s.dray.onAlt.contains p then decide (o < 12) && s.portLive o && s.portState o == 2
  else decide (o < 12) && !s.portLive o && (s.route_ true p).getLsbD 31

/-- A change of path to the peer waits (R438). -/
def State.pathWaits (s : State) (p : PeerId) : Bool := s.failoverDue p || s.dray.pendRt.any fun x => x.1 == p

/-- The entry of a path to a peer once every write that waits has taken effect. -/
def State.newRoute (s : State) (alt : Bool) (p : PeerId) : W32 :=
  match (s.dray.pendRt.filter fun x => x.1 == p && x.2.1 == alt).getLast? with
  | some x => x.2.2
  | none => s.route_ alt p

/-- The peer can be reached on the path in use or, while a change waits, on the path to come. -/
def State.reachable (s : State) (p : PeerId) : Bool := s.entryUp (s.newRoute (s.dray.onAlt.contains p != s.failoverDue p) p)

/-- A packet of this device leaves by the path in use: the sender writes PATH, and the packet carries the index of its second hop (R434). A
CTRL packet passes a FENCED port. Where no port takes it, it is lost. -/
def State.sendOn (s : State) (k : Packet) : State :=
  let e := s.route_ (s.dray.onAlt.contains k.dst) k.dst
  if h : firstPort e < 12 then
    let fenced := s.portState (firstPort e) == 3 && packetClass k.type == 4 && s.fld .dryPortCfg (firstPort e) 31 31 == 1
    if e.getLsbD 31 && !routeMalformed e && (s.portLive (firstPort e) || fenced) then
      s.enqueuePacket ⟨firstPort e, h⟩ { k with hop := 1, path := e.setWidth 24, dl := e.extractLsb' 24 6 }
    else s
  else s

/-- Sends a packet that is no request to peer `p`. -/
def State.sendTo (s : State) (p : PeerId) (type : BitVec 4) (body : PktBody) (data : List Byte) : State :=
  s.sendOn { type, src := s.ownPeer, dst := p, body, data }

/-- TYPE, operation code, size and data of a request that does `op`: the operand of an ATOMIC is the operand and the expected value. -/
def reqParts : ReqOp → BitVec 4 × BitVec 4 × Bool × List Byte
  | .read => (0, 0, false, [])
  | .write d => (1, 0, false, d)
  | .atomic aop wide operand expect => (2, aop, wide, leBytes 8 operand.toNat ++ leBytes 8 expect.toNat)

/-- A tag is given to a request. -/
def State.tagged (s : State) : State := { s with dray := { s.dray with tags := s.dray.tags + 1 } }

/-- A request that has left its engine for a peer becomes a packet (R285, R429). While a change of path to the peer waits, it
waits at the port unit (R438). A request for another target becomes none. -/
def State.ask (s : State) (f : Flight) (op : ReqOp) : State :=
  match f.way.target with
  | .peer p a =>
    let q := reqParts op
    let u : ReqUnit :=
      { tag := f.tag, dpa := a, len := f.len, hmk := f.hmk, smask := f.way.smask, watched := f.way.watched, aop := q.2.1, wide := q.2.2.1 }
    let k : Packet := { type := q.1, src := s.ownPeer, dst := p, body := .req u, data := q.2.2.2 }
    if s.pathWaits p then { s with dray := { s.dray with parked := s.dray.parked ++ [(k, f)] } } else s.sendOn k
  | _ => s

end Sys2Proof.Machine
end

