-- ==== Sys2Proof/Machine/Access.lean ====
section
/-! DEFINITION. Translated accesses of engines: reads and writes of a target by a requester, with responses from outside the
device (08 R241, R255; 09 R283-R287; 12 R392; 14 R436). -/

namespace Sys2Proof.Machine

/-- The Bus error subcause of a failing response (03 table 3.5). -/
def extSub : ExtStatus → Byte
  | .ok => 0
  | .poison => subPoison
  | .denied => subDenied
  | .link => subLink
  | .timeout => subTimeout

/-- A target on a peer that cannot be reached: Bus error, LINK (09 R285). -/
def State.cutOff (s : State) : Target → Bool
  | .peer p _ => !s.reachable p
  | _ => false

/-! ## Reads and writes -/

/-- How a read ends: data, a Bus error subcause, or a response from outside that has not come. -/
inductive RdOut where
  | ok (data : List Byte)
  | bad (sub : Byte)
  | ext
  deriving DecidableEq, Repr

/-- The key of host address `a` in the model's view of host memory: the addresses of each PASID's space stand behind those without one
(R284; DESIGN CHOICE, log 145). -/
def hostKey (pasid : Option (BitVec 20)) (a : Nat) : Nat :=
  match pasid with
  | none => a
  | some p => a + (p.toNat + 1) * 2 ^ 52

/-- Bytes of host memory or of a peer as the model last learned them (DESIGN CHOICE, log 7). -/
def State.farBytes (s : State) (t : Target) (len : Nat) : List Byte :=
  match t with
  | .dpa _ => []
  | .host _ q a => s.mem.host.bytes (hostKey q) a len
  | .peer p a => s.mem.peer.bytes (peerKey p) a len

/-- Writes bytes of host memory or of a peer. -/
def State.farWrite (s : State) (t : Target) (data : List Byte) : State :=
  match t with
  | .dpa _ => s
  | .host _ q a => { s with mem := { s.mem with host := s.mem.host.setBytes (hostKey q) a data } }
  | .peer p a => { s with mem := { s.mem with peer := s.mem.peer.setBytes (peerKey p) a data } }

/-- The link of function `f` (12 R374). -/
def State.linkOf (s : State) (f : Nat) : LinkId :=
  if f < s.fld .pexFmap 0 6 0 then 0 else if f < s.fld .pexFmap 0 14 8 then 1 else if f < s.fld .pexFmap 0 22 16 then 2 else 3

/-- Link `k` is in DL_Up. -/
def State.linkUp (s : State) (k : LinkId) : Bool := s.fld .pexLinkStat k.val 31 31 == 1

/-- Posted traffic waits at link `k`. -/
def State.hold (s : State) (k : LinkId) (i : PortItem) : State :=
  { s with portq := Sp.put s.portq k.val (Sp.get (fun _ => []) s.portq k.val ++ [i]) }

/-- A posted write to host memory under the requester ID of function `f` (12 R383): it leaves the port, or waits there while the link is
down (12 R394). `who`: the engine's request that it is. -/
def State.hostPut (s : State) (who : Option Flight) (f : BitVec 6) (pasid : Option (BitVec 20)) (a : Nat) (data : List Byte) : State :=
  if s.linkUp (s.linkOf f.toNat) then s.farWrite (.host f pasid a) data
  else s.hold (s.linkOf f.toNat) (.write who f pasid a data)

/-- A write of the device's own to host memory, which carries no PASID (12 R383). -/
def State.ownPut (s : State) (f : Nat) (a : Nat) (data : List Byte) : State := s.hostPut none (BitVec.ofNat 6 f) none a data

/-- Writes that satisfy `p` wait in the port. -/
def State.portWaits (s : State) (p : Flight → Bool) : Bool :=
  s.portq.any fun q => q.2.any fun i => match i with | .write (some f) .. => p f | _ => false

/-- A write of engine `eng` waits in the port. -/
def State.portHolds (s : State) (eng : Engine) : Bool := s.portWaits fun f => f.who.eng == eng

/-- `f` is the read of `who` at `dva`. -/
def Flight.isOf (f : Flight) (who : Asker) (dva : W64) : Bool := f.who.eng == who.eng && f.who.run == who.run && f.dva == dva

/-- The response that has come to a read of `who` at `dva`. -/
def State.reply? (s : State) (who : Asker) (dva : W64) : Option Reply :=
  s.xlat.replies.find? fun r => r.flight.isOf who dva

/-- A response is taken. -/
def State.dropReply (s : State) (r : Reply) : State := { s with xlat := { s.xlat with replies := s.xlat.replies.erase r } }

/-- What a response brings its read. -/
def Reply.out (r : Reply) : RdOut :=
  match r.status with
  | .ok => .ok r.data
  | e => .bad (extSub e)

/-- The response to a read that a stack in self-refresh holds back. -/
def Held.reply? (h : Held) : Option Reply :=
  match h.what with
  | .reply r => some r
  | _ => none

/-- The read of `who` at `dva` has left its engine and is not answered. -/
def State.asked (s : State) (who : Asker) (dva : W64) : Bool :=
  (s.xlat.flights.any fun f => f.isOf who dva) || s.held.any fun h => h.reply?.any fun r => r.flight.isOf who dva

/-- A read, or an atomic operation, leaves the device, unless it has left already. -/
def State.depart (s : State) (f : Flight) (op : ReqOp := .read) : State :=
  if s.asked f.who f.dva then s
  else
    let f := { f with tag := s.dray.tags }
    (s.tagged.fly f).ask f op

/-- A response comes to flight `f`, with the data that its target now holds. -/
def State.answer (s : State) (f : Flight) (st : ExtStatus) : State :=
  { s with xlat := { s.xlat with
      flights := s.xlat.flights.erase f
      replies := s.xlat.replies ++ [⟨f, st, if st = .ok then s.farBytes f.way.target f.len else []⟩] } }

/-- The status that a response carries for the end of a memory access. -/
def subStatus (sub : Byte) : ExtStatus :=
  if sub = subPoison then .poison else if sub = subDenied then .denied else if sub = subLink then .link else .timeout

/-- A read of this device's memory whose stack, of channel `c`, is in self-refresh: it joins the channel's queue once, while that has room,
and its response waits (13 R414). -/
def State.sleepRead (s : State) (c : Nat) (q : Requester) (f : Flight) (a : Nat) : State :=
  if s.asked f.who f.dva || s.chanFull c then s
  else
    match s.dpaRead q a f.len f.way.watched with
    | (s, .ok d) => s.holdAt c (.reply ⟨f, .ok, d⟩)
    | (s, .bad sub) => s.holdAt c (.reply ⟨f, subStatus sub, []⟩)

/-- A read by `who` under hallmark `h` of `len` bytes at `dva`, translated to `g`. Outside the device it leaves, and the response answers it
when it has come; so it is with a stack in self-refresh. -/
def State.engRead (s : State) (who : Asker) (h : BitVec 12) (dva : W64) (g : Way) (len : Nat) (fill : Bool := true) : State × RdOut :=
  match s.reply? who dva with
  | some r => (s.dropReply r, r.out)
  | none =>
    match g.target with
    | .dpa a =>
      let q : Requester := { hmk := h, smask := g.smask, shop := engineShop who.eng }
      match s.readSleeps q a with
      | some c => (s.sleepRead c q { who, hmk := h, dva, len, way := g } a, .ext)
      | none =>
        match s.dpaRead q a len g.watched fill with
        | (s, .ok d) => (s, .ok d)
        | (s, .bad e) => (s, .bad e)
    | far => if s.cutOff far then (s, .bad subLink) else (s.depart { who, hmk := h, dva, len, way := g }, .ext)

/-- How a write ends: it is accepted, it is refused with a Bus error subcause, or it waits with its requester. -/
inductive WrOut where
  | ok
  | bad (sub : Byte)
  | full
  deriving DecidableEq, Repr

/-- A write by `who`. A write to host memory or to a peer leaves the device, or waits in the port while the link is down (08 table 8.3, 12
R394); one to a stack in self-refresh takes a place in the channel's queue, and waits where there is none (13 R414). -/
def State.engWrite (s : State) (who : Asker) (h : BitVec 12) (dva : W64) (g : Way) (data : List Byte) : State × WrOut :=
  match g.target with
  | .dpa a =>
    let c := s.sleeps a
    if c.any s.chanFull then (s, .full)
    else
      match s.dpaWrite { hmk := h, smask := g.smask, shop := engineShop who.eng } a data g.watched with
      | (s, .ok _) => ((match c with | some c => s.holdAt c .write | none => s), .ok)
      | (s, .bad e) => (s, .bad e)
  | .host f q a => (s.hostPut (some { who, hmk := h, dva, len := data.length, way := g }) f q a data, .ok)
  | .peer p a =>
    if !s.reachable p then (s, .bad subLink)
    else
    let f : Flight := { who, hmk := h, dva, len := data.length, way := g, tag := s.dray.tags }
    let s := s.tagged.farWrite (.peer p a) data
    (({ s with mem := { s.mem with acks := s.mem.acks ++ [f] } } : State).ask f (.write data), .ok)

/-- Some write of engine `eng` to a peer is not acknowledged. -/
def State.unacked (s : State) (eng : Engine) : Bool := s.mem.acks.any fun a => a.who.eng == eng

/-- Every write of engine `eng` has the acknowledgement that table 8.3 gives for FENCE.P. -/
def State.settled (s : State) (eng : Engine) : Bool := !s.unacked eng && !s.portHolds eng

/-- Every write of one descriptor of a carter, `who`, has that acknowledgement. -/
def State.runSettled (s : State) (who : Asker) : Bool :=
  let mine (f : Flight) : Bool := f.who.eng == who.eng && f.who.run == who.run
  !(s.mem.acks.any mine) && !s.portWaits mine

/-- The answers to some writes are awaited no longer; those that still wait in a port are performed later (10 R326). -/
def State.forget (s : State) (p : Flight → Bool) : State :=
  let item : PortItem → PortItem
    | .write (some f) fn q a d => .write (if p f then none else some f) fn q a d
    | i => i
  { s with
    mem := { s.mem with acks := s.mem.acks.filter fun f => !p f }
    portq := s.portq.map fun q => (q.1, q.2.map item) }

/-- How a read by DVA ends. -/
inductive DvaRd where
  | ok (data : List Byte)
  | wait (w : EngWait)
  | fault (sub : Byte)
  | bad (sub : Byte)
  deriving DecidableEq, Repr

/-- Reads `len` bytes at `dva`, all in one page. A read whose response has come takes it: it goes to the frame to which it was translated
when it left, whatever an invalidation has done since (09 R302). `record` is as for `translate`. -/
def State.dvaRead (s : State) (who : Asker) (h : BitVec 12) (dva : W64) (len : Nat) (record : Bool := true) : State × DvaRd :=
  let fin : State × RdOut → State × DvaRd
    | (s, .ok d) => (s, .ok d)
    | (s, .bad sub) => (s, .bad sub)
    | (s, .ext) => (s, .wait .ext)
  match s.reply? who dva with
  | some r => fin (s.dropReply r, r.out)
  | none =>
    if s.asked who dva then (s, .wait .ext)
    else
    match s.translate who.eng h dva .read record with
    | (s, .ok g) => fin (s.engRead who h dva g len)
    | (s, .wait e) => (s, .wait (.fault e))
    | (s, .quota) => (s, .wait .quota)
    | (s, .fault sub) => (s, .fault sub)

/-- How a write by DVA of several 64-byte units ends. -/
inductive DvaOut where
  | ok
  | wait (w : EngWait)
  | fault (sub : Byte)
  | bad (sub : Byte)
  deriving DecidableEq, Repr

/-- Translates `n` units of 64 bytes from `dva`, for the access `acc`. -/
def State.dvaTranslate (eng : Engine) (h : BitVec 12) (acc : Acc) : Nat → W64 → State → State × DvaOut
  | 0, _, s => (s, .ok)
  | n + 1, dva, s =>
    match s.translate eng h dva acc with
    | (s, .ok _) => State.dvaTranslate eng h acc n (dva + 64) s
    | (s, .wait e) => (s, .wait (.fault e))
    | (s, .quota) => (s, .wait .quota)
    | (s, .fault sub) => (s, .fault sub)

/-- Writes bytes at `dva`, all in one page. -/
def State.dvaWrite (s : State) (who : Asker) (h : BitVec 12) (dva : W64) (data : List Byte) (record : Bool := true) : State × DvaOut :=
  match s.translate who.eng h dva .write record with
  | (s, .ok g) =>
    match s.engWrite who h dva g data with
    | (s, .ok) => (s, .ok)
    | (s, .bad sub) => (s, .bad sub)
    | (s, .full) => (s, .wait .ext)
  | (s, .wait e) => (s, .wait (.fault e))
  | (s, .quota) => (s, .wait .quota)
  | (s, .fault sub) => (s, .fault sub)

/-- Writes data in units of 64 bytes from `dva`, whose translations stand. -/
def State.dvaWriteUnits (who : Asker) (h : BitVec 12) : Nat → W64 → List Byte → State → State × DvaOut
  | 0, _, _, s => (s, .ok)
  | n + 1, dva, data, s =>
    match s.translate who.eng h dva .write with
    | (s, .ok g) =>
      match s.engWrite who h dva g (data.take 64) with
      | (s, .ok) => State.dvaWriteUnits who h n (dva + 64) (data.drop 64) s
      | (s, .bad sub) => (s, .bad sub)
      | (s, .full) => (s, .wait .ext)
    | (s, .wait e) => (s, .wait (.fault e))
    | (s, .quota) => (s, .wait .quota)
    | (s, .fault sub) => (s, .fault sub)

/-- Translates every page of a row of whole 64-byte units, then writes it. -/
def State.dvaWriteRow (s : State) (who : Asker) (h : BitVec 12) (dva : W64) (data : List Byte) : State × DvaOut :=
  match State.dvaTranslate who.eng h .write (data.length / 64) dva s with
  | (s, .ok) => State.dvaWriteUnits who h (data.length / 64) dva data s
  | r => r

/-- Cells of host memory that the outside world supplies. -/
def State.learnHost (s : State) (c : Cells) : State := { s with mem := { s.mem with host := s.mem.host.setCells c } }

/-- Cells of peer `p`'s memory, by its DPA, that the outside world supplies. -/
def State.learnPeer (s : State) (p : PeerId) (c : Cells) : State :=
  { s with mem := { s.mem with peer := s.mem.peer.setCells (c.map fun x => (peerKey p x.1, x.2)) } }

end Sys2Proof.Machine
end

