-- ==== Sys2Proof/Machine/Flags.lean ====
section
/-! DEFINITION. Conditions and flag computations of the control core (02 R42, R47). -/

namespace Sys2Proof.Machine

/-- The condition that CSEL selects (02 table 2.2). -/
def Flags.sel (f : Flags) (csel : BitVec 3) : Bool :=
  match csel.toNat with
  | 0 => true
  | 1 => f.z
  | 2 => f.n
  | 3 => f.c
  | 4 => f.v
  | 5 => f.p1
  | 6 => f.p2
  | _ => f.p3

/-- The condition of an instruction: bit 3 is NEG, bits [2:0] are CSEL (02 R42). -/
def Flags.holds (f : Flags) (cond : BitVec 4) : Bool := f.sel (cond.extractLsb' 0 3) != cond.getLsbD 3

/-- Z and N of a result; the other flags keep their values. -/
def Flags.zn (f : Flags) (r : W64) : Flags := { f with z := r == 0, n := r.getLsbD 63 }

/-- Z, N, C and V of `a + b + cin` (02 R47). -/
def Flags.addition (f : Flags) (a b : W64) (cin : Bool) : Flags :=
  let k := if cin then 1 else 0
  let r := a + b + BitVec.ofNat 64 k
  { f.zn r with
    c := decide (2 ^ 64 ≤ a.toNat + b.toNat + k)
    v := decide (a.toInt + b.toInt + k ≠ r.toInt) }

/-- Z, N, C and V of `a - b - (1 - cin)`: C is 1 when no borrow occurs (02 R47). -/
def Flags.subtraction (f : Flags) (a b : W64) (cin : Bool) : Flags :=
  let k := if cin then 0 else 1
  let r := a - b - BitVec.ofNat 64 k
  { f.zn r with
    c := decide (b.toNat + k ≤ a.toNat)
    v := decide (a.toInt - b.toInt - k ≠ r.toInt) }

/-- The flags and predicates as special register FLAGS holds them: p3 p2 p1 V C N Z (02 table 2.8). -/
def Flags.toBits (f : Flags) : BitVec 7 :=
  BitVec.ofBool f.p3 ++ BitVec.ofBool f.p2 ++ BitVec.ofBool f.p1 ++ BitVec.ofBool f.v ++ BitVec.ofBool f.c ++
    BitVec.ofBool f.n ++ BitVec.ofBool f.z

/-- The flags of a FLAGS value. -/
def Flags.ofBits (v : BitVec 7) : Flags :=
  { z := v.getLsbD 0, n := v.getLsbD 1, c := v.getLsbD 2, v := v.getLsbD 3, p1 := v.getLsbD 4, p2 := v.getLsbD 5,
    p3 := v.getLsbD 6 }

end Sys2Proof.Machine
end

