-- ==== Sys2Proof/Machine/Operands.lean ====
section
/-! DEFINITION. Operand forms of the control core: scalar registers and immediates (02 R46), sizes and effective addresses (02
R56). -/

namespace Sys2Proof.Machine

/-- Scalar register `r`; s0 reads 0 (02 R46). -/
def Core.rd (c : Core) (r : R5) : W64 := if r = 0 then 0 else Sp.get (fun _ => 0#64) c.sregs r.toNat

/-- Writes scalar register `r`; a write to s0 is discarded (02 R46). -/
def Core.wr (c : Core) (r : R5) (v : W64) : Core :=
  if r = 0 then c else { c with sregs := Sp.set (fun _ => 0#64) c.sregs r.toNat v }

/-- Writes a register and, when SF is 1, the flags. -/
def Core.result (c : Core) (r : R5) (v : W64) (sf : BitVec 1) (f : Flags) : Core :=
  { c.wr r v with flags := if sf = 1 then f else c.flags }

/-- Access size in bytes of SZ (02 R56). -/
def sizeOf_ (sz : BitVec 2) : Nat := 2 ^ sz.toNat

/-- The effective address ra + OFF11 (02 R56). -/
def Core.ea (c : Core) (ra : R5) (off : BitVec 11) : W64 := c.rd ra + off.signExtend 64

/-- A loaded value, sign- or zero-extended from `n` bytes (02 R56). -/
def extendLoad (n : Nat) (signed : Bool) (v : Nat) : W64 :=
  if signed then (BitVec.ofNat (8 * n) v).signExtend 64 else BitVec.ofNat 64 v

end Sys2Proof.Machine
end

