-- ==== Sys2Proof/Machine/Exceptions.lean ====
section
/-! DEFINITION. Taking an exception, the frame seal and the return (03). -/

namespace Sys2Proof.Machine

/-! ## Modes and STATUS -/

/-- Plumb mode is in effect: MODE.PLB, or forced by BEN_DBG_CTL.FPLB (02 R82, BEN_DBG_CTL). -/
def State.plumb (s : State) (b : BenchId) : Bool := (s.bench b).core.plb || s.fld .benDbgCtl b.val 4 4 == 1

/-- STATUS as MGET reads it and entry saves it (03 R90). -/
def State.status (s : State) (b : BenchId) : W64 :=
  let c := (s.bench b).core
  0#16 ++ c.xdepth ++ 0#8 ++ c.ien ++ 0#1 ++ BitVec.ofNat 3 c.loops.length ++ 0#1 ++ c.flags.toBits ++ 0#1 ++
    BitVec.ofBool c.bsk ++ BitVec.ofBool c.len ++ BitVec.ofBool (s.plumb b) ++ BitVec.ofBool c.lda ++ 0#1 ++ c.pl

/-! ## Exception banks (03 R91, R92) -/

/-- XSP, XSL and XBASE of the bank of level 1 or 2. -/
structure Bank where
  xsp : W64
  xsl : W64
  xbase : BitVec 16
  deriving DecidableEq, Repr

/-- The bank of level `l`: Master's is the core's, Journeyman's is BEN_XJ_SP, BEN_XJ_SL and BEN_XJ_BASE (03 R91), whose fields are bits
[21:0] of XSP and XSL (02 table 2.8 gives these 64 bits). -/
def State.bank (s : State) (b : BenchId) (l : BitVec 2) : Bank :=
  let c := (s.bench b).core
  if l = 2 then ⟨c.mxsp, c.mxsl, c.mxbase⟩
  else
    ⟨c.jspHi ++ BitVec.ofNat 22 (s.fld .benXjSp b.val 21 0), c.jslHi ++ BitVec.ofNat 22 (s.fld .benXjSl b.val 21 0),
      BitVec.ofNat 16 (s.fld .benXjBase b.val 15 0)⟩

/-- Writes the bank of level `l`. -/
def State.setBank (s : State) (b : BenchId) (l : BitVec 2) (k : Bank) : State :=
  if l = 2 then s.updCore b fun c => { c with mxsp := k.xsp, mxsl := k.xsl, mxbase := k.xbase }
  else
    let s := s.updCore b fun c => { c with jspHi := k.xsp.extractLsb' 22 42, jslHi := k.xsl.extractLsb' 22 42 }
    ((s.setFld .benXjSp b.val 21 0 (k.xsp.toNat % 2 ^ 22)).setFld .benXjSl b.val 21 0 (k.xsl.toNat % 2 ^ 22)).setFld .benXjBase b.val
      15 0 k.xbase.toNat

/-- A bank address as the device uses it: bits [21:7], the rest 0 (03 R92). -/
def frameAddr (v : W64) : Nat := v.toNat % 2 ^ 22 / 128 * 128

/-! ## The seal (03 R97) -/

/-- The secret XKEY of a core: a free value at every bench reset. -/
def Core.xkey (c : Core) : W64 := Config.xkey c.xkeyBench.val c.xkeyDraw

/-- One round of the seal. -/
def sealRound (x y : W64) : W64 × W64 :=
  let x := x + y
  let y := (y <<< 23 ||| y >>> 41) ^^^ x
  (x <<< 31 ||| x >>> 33, y)

/-- seal16 under secret `key` (03 R97). -/
def seal16 (key st : W64) (d : BitVec 16) : BitVec 16 :=
  let x := st ^^^ key
  let y := d.setWidth 64 ^^^ (key <<< 32 ||| key >>> 32)
  let p := sealRound x y
  let p := sealRound p.1 p.2
  let p := sealRound p.1 p.2
  (p.1 ^^^ p.2 ^^^ p.1 >>> 16 ^^^ p.1 >>> 32 ^^^ p.1 >>> 48).setWidth 16

/-! ## Causes -/

def causeIllegal : Byte := 0x01
def causeReserved : Byte := 0x02
def causeMisaligned : Byte := 0x03
def causeBus : Byte := 0x04
def causeTranslation : Byte := 0x05
def causePrivilege : Byte := 0x06
def causeSeal : Byte := 0x07
def causeStackLimit : Byte := 0x08
def causeArith : Byte := 0x09
def causeForge : Byte := 0x0A
def causeTrap : Byte := 0x0B
def causeBreak : Byte := 0x0C
def causePreempt : Byte := 0x10
def causeBell : Byte := 0x11
def causeCount : Byte := 0x12
def causeNotice : Byte := 0x13

/-- The handling level "Deleg" of table 3.5 for code of level `rl` (03 R105): bit `code` of BEN_XDELEG delegates. -/
def State.delegLevel (s : State) (b : BenchId) (code : Byte) (rl : BitVec 2) : BitVec 2 :=
  if rl.toNat < 2 && (s.reg ⟨.benXdeleg, b.val, 0⟩).getLsbD code.toNat then 1 else 2

/-- frame_guarded: R93 closes some byte of the frame to level `l` (03 R95). -/
def State.frameGuarded (s : State) (b : BenchId) (f : Nat) (l : BitVec 2) : Bool := s.guarded b l f 128

/-! ## Seizure (03 R113, 11 R362) -/

/-- The bench seizes: core stopped, queues discarded, cause recorded; the foreman isolates it, which drains at once, records it and
marks the kernel (17 R505, R507). DEDUCED, log 26. DEDUCED, log 108. -/
def State.seize (s : State) (b : BenchId) (code : Byte) : State :=
  let s := (s.setFld .benXstat b.val 31 31 1).setFld .benXstat b.val 23 16 code.toNat
  let s := s.updBench b fun x =>
    { x with
      core := { x.core with running := false, stall := none, pendingScalar := [], results := [] }
      lathe := { x.lathe with queue := [], frozen := false, wait := none, vpi := 0 }
      forge := { x.forge with
        queue := [], frozen := false, arrayNext := none, loaderNext := none, ladleNext := none, array := none,
        arrayHeld := false, loader := none, loaderHeld := false, ladle := none, ladleHeld := false } }
  let s := (((s.withdraw (.core b)).withdraw (.lathe b)).withdraw (.ladle b)).land (.core b)
  let s := { s.setFld .fmnBenchCtl b.val 31 28 0 with seizing := b :: s.seizing.filter (· != b) }
  let s := s.recordHmk (s.benchHmk b) { src := 1, event := 1, unit_ := BitVec.ofNat 16 b.val, w2 := code.setWidth 64 }
  match (s.bench b).slot with
  | none => s
  | some n =>
    { s with kernels := Sp.put s.kernels n.val { Sp.get (fun _ => ({} : Kernel)) s.kernels n.val with status := 5 } }

/-! ## Entry (03 R94, R95) -/

/-- What the frame records about the raising instruction. -/
structure Raise where
  cause : Cause
  ret : BitVec 16
  word : W36 := 0
  imm : W36 := 0
  /-- A deferred cause: the engine that it stops, and the engine instruction's address. -/
  deferred : Option (Holder × BitVec 16) := none
  deriving DecidableEq, Repr

/-- The sixteen words of a frame (03 table 3.2). `loops` are outermost first. -/
def frameWords (r : Raise) (c : Byte) (sub orig : Byte) (st : W64) (d sl : BitVec 16) (psp : W64)
    (loops : List LoopEntry) : List W64 :=
  let loopWord (k : Nat) : W64 :=
    match loops[k]? with
    | some l => l.le ++ l.ls ++ l.lc
    | none => 0
  let w7 : W64 :=
    match r.deferred with
    | some (q, epc) => 1#1 ++ BitVec.ofBool (q != .lathe) ++ 0#14 ++ epc ++ psp.setWidth 32
    | none => 0#32 ++ psp.setWidth 32
  [r.ret.setWidth 64, st, 0#32 ++ d ++ sl, r.cause.info ++ 0#8 ++ orig ++ sub ++ c, r.cause.addr, r.word.setWidth 64,
    r.imm.setWidth 64, w7, loopWord 0, loopWord 1, loopWord 2, loopWord 3, 0, 0, 0, 0]

/-- Writes a list of 64-bit words from bench-store offset `f`. -/
def Bench.writeWords (x : Bench) (f : Nat) (ws : List W64) : Bench := x.writeStore f (ws.flatMap fun w => leBytes 8 w.toNat)

/-- Exception entry at handling level `l` (03 R95). The 12 A-cycles of entry count. The frame lies in the bench's own store, whose write
cannot fail. DEDUCED, log 24. DEDUCED, log 144. -/
def State.enter (s : State) (b : BenchId) (l : BitVec 2) (r : Raise) : State :=
  let c := (s.bench b).core
  if c.lda then s.seize b r.cause.code
  else
    let st0 := s.status b
    let st := if r.cause.code = causeBreak then st0 ||| 0x40#64 else st0
    let k := s.bank b l
    let sp := frameAddr k.xsp
    let sl := frameAddr k.xsl
    let above := sp < sl + 128 || s.frameGuarded b (sp - 128) l
    let code := if above then causeStackLimit else r.cause.code
    let sub := if above then 0 else r.cause.sub
    let orig := if above then r.cause.code else 0
    let f := if above then sl - 128 else sp - 128
    if above && (sl < 256 || s.frameGuarded b f l) then s.seize b code
    else
      let d := c.xdepth + 1
      let r := if above then { r with cause := { r.cause with addr := k.xsp.setWidth 32 |>.setWidth 64, info := 0 } } else r
      let ws := frameWords r code sub orig st d (seal16 c.xkey st d) k.xsp c.loops.reverse
      let s := s.updBench b fun x => x.writeWords f ws
      let s := s.setBank b l { k with xsp := BitVec.ofNat 64 f }
      let s := s.setFld .benXstat b.val 23 16 code.toNat
      let s := if code = causeSeal then s.satAdd .benXstat b.val 15 0 1 else s
      s.updCore b fun c =>
        { c with
          pl := l, ien := 0, len := false, bsk := false, loops := [], xdepth := d
          lda := c.lda || code == causeStackLimit
          pc := k.xbase + BitVec.ofNat 16 (4 * code.toNat)
          fetchDue := true, lookahead := [], stall := none
          frames := (d, r.deferred.map (·.1)) :: c.frames
          cycle := c.cycle + 12
          halted := c.halted || c.stepping
          why := if c.stepping then 2 else c.why
          stepping := false }

/-- Raises a synchronous cause of the core's instruction: the handling level is Deleg for the current level, or the current
level for Frame seal (03 R99, R105). -/
def State.raise (s : State) (b : BenchId) (r : Raise) : State :=
  let pl := (s.bench b).core.pl
  s.enter b (if r.cause.code = causeSeal then pl else s.delegLevel b r.cause.code pl) r

/-! ## Interrupt points (03 R109, R110) -/

/-- A pending cause that an interrupt point may take. -/
inductive Taken where
  | lathe (d : Deferred) (level : BitVec 2)
  | forge (d : Deferred) (level : BitVec 2)
  | preempt
  | notice (level : BitVec 2)
  | count (level : BitVec 2)
  | bell (level : BitVec 2)
  deriving DecidableEq, Repr

/-- The entry that an interrupt point takes, if any, in the order of R109; nothing is taken while LDA is 1 (03 R112). -/
def State.pick (s : State) (b : BenchId) : Option Taken :=
  let c := (s.bench b).core
  if c.lda then none
  else
    let ok (l : BitVec 2) : Bool := c.pl.toNat ≤ l.toNat
    let dl (d : Deferred) := s.delegLevel b d.cause.code d.level
    let cl (code : Byte) := s.delegLevel b code c.pl
    match c.deferLathe.filter fun d => ok (dl d) with
    | some d => some (.lathe d (dl d))
    | none =>
      match c.deferForge.find? fun d => ok (dl d) with
      | some d => some (.forge d (dl d))
      | none =>
        if c.pendPreempt && (c.pl.toNat < 2 || c.ien.getLsbD 0) then some .preempt
        else if c.pendNotice && c.ien.getLsbD 3 then some (.notice (cl causeNotice))
        else if c.pendCount && c.ien.getLsbD 2 then some (.count (cl causeCount))
        else if c.pendBell && c.ien.getLsbD 1 then some (.bell (cl causeBell))
        else none

/-- Takes a pending cause at an interrupt point: RET is the core's next instruction (03 R105). -/
def State.take (s : State) (b : BenchId) (t : Taken) : State :=
  let pc := (s.bench b).core.pc
  match t with
  | .lathe d l =>
    (s.updCore b fun c => { c with deferLathe := none }).enter b l
      { cause := d.cause, ret := pc, word := d.word, deferred := some (d.holder, d.epc) }
  | .forge d l =>
    (s.updCore b fun c => { c with deferForge := c.deferForge.erase d }).enter b l
      { cause := d.cause, ret := pc, word := d.word, deferred := some (d.holder, d.epc) }
  | .preempt => (s.updCore b fun c => { c with pendPreempt := false }).enter b 2 { cause := { code := causePreempt }, ret := pc }
  | .notice l => (s.updCore b fun c => { c with pendNotice := false }).enter b l { cause := { code := causeNotice }, ret := pc }
  | .count l => (s.updCore b fun c => { c with pendCount := false }).enter b l { cause := { code := causeCount }, ret := pc }
  | .bell l => (s.updCore b fun c => { c with pendBell := false }).enter b l { cause := { code := causeBell }, ret := pc }

end Sys2Proof.Machine
end

