-- ==== Sys2Proof/Machine/Issue.lean ====
section
/-! DEFINITION. One instruction of the control core: its states, checks, completion, loop-end decision, cycle count and
lookahead (02 R52-R55, R60, R64-R69, R76, R86, R87; 03 R106, R108). -/

namespace Sys2Proof.Machine

/-! ## The program store -/

/-- The word at program-store address `a`. -/
def Bench.psWord (x : Bench) (a : BitVec 16) : W36 := Sp.get (fun _ => 0#36) x.ps a.toNat

/-- Writes a program-store word whole, with fresh check bits (02 R61, R63). -/
def Bench.psWrite (x : Bench) (a : BitVec 16) (w : W36) : Bench :=
  { x with ps := Sp.set (fun _ => 0#36) x.ps a.toNat w, psErr := Sp.erase x.psErr a.toNat
           psBlocks := if x.psBlocks.contains (a.toNat / 1024) then x.psBlocks else (a.toNat / 1024) :: x.psBlocks }

/-! ## Loops and the predicted path -/

/-- The loop-end decision (02 R76) for the instruction whose last word is at `last`; `next` is the following address. -/
def loopEnd (last : BitVec 16) : List LoopEntry → BitVec 16 → List LoopEntry × BitVec 16
  | [], next => ([], next)
  | l :: r, next =>
    if last = l.le then
      if 1 < l.lc.toNat then ({ l with lc := l.lc - 1 } :: r, l.ls) else loopEnd last r next
    else (l :: r, next)

/-- The word that follows address `a` on the predicted path (02 R65). -/
def pathNext (loops : List LoopEntry) (a : BitVec 16) : BitVec 16 :=
  match loops with
  | l :: _ => if a = l.le ∧ 1 < l.lc.toNat then l.ls else a + 1
  | [] => a + 1

/-- A program-store word fetched (02 R60): a single-bit error is corrected, written back and counted in BEN_PS_ERR.CORR; the flag says
whether the word is uncorrectable. -/
def State.psFetch (s : State) (b : BenchId) (a : BitVec 16) : State × LookWord :=
  let w := (s.bench b).psWord a
  match Sp.find (s.bench b).psErr a.toNat with
  | none => (s, ⟨a, w, false⟩)
  | some .single => ((s.updBench b fun x => { x with psErr := Sp.erase x.psErr a.toNat }).satAdd .benPsErr b.val 15 0 1, ⟨a, w, false⟩)
  | some .double => (s, ⟨a, w, true⟩)

/-- The words of `path` that the lookahead buffer holds once the program-store port has had `free` A-cycles for lookahead (02 R64): a held
word stays and is not read again; each other takes one of those A-cycles. -/
def State.lookAlong (b : BenchId) : Nat → List (BitVec 16) → State → State × List LookWord
  | _, [], s => (s, [])
  | free, a :: r, s =>
    match (s.bench b).core.lookahead.find? fun e => e.addr = a with
    | some e =>
      match State.lookAlong b free r s with
      | (s, l) => (s, e :: l)
    | none =>
      match free with
      | 0 => (s, [])
      | free + 1 =>
        match s.psFetch b a with
        | (s, e) =>
          match State.lookAlong b free r s with
          | (s, l) => (s, e :: l)

/-- The two words of the predicted path from `a` on (02 R65). -/
def lookPath (loops : List LoopEntry) (a : BitVec 16) : List (BitVec 16) := [a, pathNext loops a]

/-! ## What an instruction does -/

/-- How an instruction ends. `cyc` is its count of A-cycles without the Fetch state; `refetch`: the next Fetch takes an
A-cycle (02 R53). -/
inductive Body where
  /-- Completes; the next instruction is the loop-end decision's. -/
  | done (s : State) (cyc : Nat) (refetch : Bool)
  /-- STP completes after it has discarded a held word: the next Fetch takes an A-cycle, and the other held word stays (02 R53, R67). -/
  | snoop (s : State) (cyc : Nat)
  /-- Completes with a transfer, which makes no loop-end decision (02 R76). -/
  | jump (s : State) (cyc : Nat) (target : BitVec 16) (refetch : Bool)
  /-- RETX completes: STATUS, loops and banks are restored in `s`; BSK takes its restored value (03 R98, R106). -/
  | ret (s : State) (cyc : Nat) (target : BitVec 16) (bsk : Bool)
  /-- TRAP completes and then raises Trap at level `l` (03 R102). -/
  | trap (s : State) (cyc : Nat) (l : BitVec 2) (info : W32)
  /-- Raises; nothing of its own has been written (02 R54). -/
  | raise (s : State) (cyc : Nat) (c : Cause)
  /-- Stalls: not completed (02 R52). -/
  | stall (s : State) (w : Stall)
  /-- A watchpoint halts the core: not completed (02 R87). -/
  | halt (s : State) (why : HaltWhy)

/-- The operands that issue needs: the words, whether the form is long, whether the encoding is illegal or reserved, and the
scalar registers named. -/
structure Form where
  word : W36
  imm : W36 := 0
  long : Bool := false
  illegal : Bool := false
  reserved : Bool := false
  regs : List R5 := []
  /-- A branch guessed taken (02 R66): a false condition then makes the guess wrong. -/
  guessed : Bool := false

/-- The core of bench `b` can begin an instruction: its clock runs, it is released, neither halted (but for a STEP) nor in a
stall that only another step ends. -/
def State.canIssue (s : State) (b : BenchId) : Bool :=
  let c := (s.bench b).core
  s.aclock b && c.running && !c.stopping && (!c.halted || c.stepping) &&
    match c.stall with
    | none | some (.scalar _) | some (.queue _) => true
    | _ => false

/-- A-cycles of the Fetch state: always 1 in plumb mode, else 1 only when due (02 R53, table 2.7). -/
def State.fetchCycles (s : State) (b : BenchId) : Nat :=
  if s.plumb b then 1 else if (s.bench b).core.fetchDue then 1 else 0

/-- Program-store errors of the instruction's words (02 R60). A first word whose Fetch is hidden is the one that the lookahead buffer
holds; the others are read now. False: an uncorrectable word, noted in BEN_PS_ERR.DBL. -/
def State.fetchCheck (s : State) (b : BenchId) : List (BitVec 16) → State × Bool
  | [] => (s, true)
  | a :: r =>
    let held := if s.fetchCycles b = 0 then (s.bench b).core.lookahead.find? fun e => e.addr = a else none
    match held.elim (s.psFetch b a) fun e => (s, e) with
    | (s, e) => if e.bad then (s.setFld .benPsErr b.val 31 31 1, false) else State.fetchCheck s b r

/-- The lowest enabled breakpoint that names `pc` (02 R87). -/
def State.breakpoint (s : State) (b : BenchId) (pc : BitVec 16) : Option Nat :=
  (List.range 4).find? fun n =>
    (s.reg ⟨.benDbgCtl, b.val, 0⟩).getLsbD (8 + n) && bits (s.reg ⟨.benBp, b.val, n⟩) 15 0 == pc.toNat

/-- A-cycles pass on a bench's counter. -/
def State.advance (s : State) (b : BenchId) (n : Nat) : State :=
  s.updCore b fun c => { c with cycle := c.cycle + BitVec.ofNat 64 n }

/-- The core halts without completing its instruction, or between instructions (02 R86, R87). -/
def State.halt (s : State) (b : BenchId) (why : HaltWhy) : State :=
  s.updCore b fun c => { c with halted := true, why, stepping := false }

/-- The interrupt point after an instruction: a STEP is done, or a halt request is met (02 R86). -/
def State.afterInstr (s : State) (b : BenchId) : State :=
  if (s.bench b).core.stepping then s.halt b 2
  else if s.fld .benDbgCtl b.val 0 0 == 1 && !(s.bench b).core.halted then s.halt b 1
  else s

/-- Completion (02 R54): the cycles count, PC and the loop stack move, BSK takes `bsk` (false but for RETX, 03 R106), and the
lookahead buffer fills in the `free` A-cycles that the instruction leaves the program-store port (02 R64); before a visible Fetch it is
empty, but for the word that a snoop discard leaves (`keep`, R67). -/
def State.complete (s : State) (b : BenchId) (cyc : Nat) (loops : List LoopEntry) (pc : BitVec 16) (refetch : Bool)
    (bsk : Bool := false) (free : Nat := 2) (keep : Bool := false) : State :=
  match (if s.plumb b || (refetch && !keep) then (s, []) else s.lookAlong b (if refetch then 0 else free) (lookPath loops pc)) with
  | (s, look) =>
    s.updBench b fun x =>
      { x with
        core := { x.core with
          bsk
          cycle := x.core.cycle + BitVec.ofNat 64 cyc
          loops, pc
          stall := none
          fetchDue := refetch
          lookahead := look } }

/-- Ends an instruction as its body says. DEDUCED, log 20. DEDUCED, log 25. -/
def State.finish (s0 : State) (b : BenchId) (f : Form) : Body → State
  | .done s cyc refetch =>
    let c := (s.bench b).core
    let last := if f.long then (s0.bench b).core.pc + 1 else (s0.bench b).core.pc
    let p := loopEnd last c.loops (last + 1)
    (s.complete b (s0.fetchCycles b + cyc) p.1 p.2 refetch (free := cyc)).afterInstr b
  | .snoop s cyc =>
    let c := (s.bench b).core
    let p := loopEnd c.pc c.loops (c.pc + 1)
    (s.complete b (s0.fetchCycles b + cyc) p.1 p.2 true (keep := true)).afterInstr b
  | .jump s cyc target refetch =>
    (s.complete b (s0.fetchCycles b + cyc) (s.bench b).core.loops target refetch).afterInstr b
  | .ret s cyc target bsk =>
    (s.complete b (s0.fetchCycles b + cyc) (s.bench b).core.loops target true bsk).afterInstr b
  | .trap s cyc l info =>
    let p := loopEnd (s0.bench b).core.pc (s.bench b).core.loops ((s0.bench b).core.pc + 1)
    (s.complete b (s0.fetchCycles b + cyc) p.1 p.2 true).enter b l
      { cause := { code := causeTrap, info }, ret := p.2, word := f.word }
  | .raise s cyc c =>
    let s := (s.advance b (s0.fetchCycles b + cyc)).updCore b fun c => { c with bsk := false, stall := none }
    s.raise b { cause := c, ret := (s0.bench b).core.pc, word := f.word, imm := if f.long then f.imm else 0 }
  | .stall s w =>
    (s.updCore b fun c =>
      { c with stall := some w, cycle := c.cycle + Config.stallCycles s.draws }).drawn
  | .halt s why => s.halt b why

/-- An instruction of bench `b` in the core: Fetch and Decode with the checks of orders 1 to 4 of table 3.6 and the stall on
pending registers (02 R72), then `body`. A command for a core that cannot begin one changes nothing (DESIGN CHOICE, log 10). A POISON or
breakpoint raise in a long form counts the Extension state even where the condition is false, and a JR whose condition is false leaves
the next Fetch hidden (DEDUCED, log 138). A step or a resume at an enabled breakpoint with HMODE = 1 matches it again (DEDUCED, log 142).
DESIGN CHOICE, log 18. DEDUCED, log 19. -/
def issue (b : BenchId) (f : Form) (body : State → Body) (s : State) : State :=
  if !s.canIssue b then s
  else
    let c := (s.bench b).core
    let taken := c.flags.holds (f.word.extractLsb' 32 4)
    let words := if f.long && taken then [c.pc, c.pc + 1] else [c.pc]
    let decode := 1 + (if f.long then 1 else 0)
    match s.fetchCheck b words with
    | (s, false) => s.finish b f (.raise s decode { code := causeBus, sub := subPoison, addr := c.pc.setWidth 64 })
    | (s, true) =>
      match if c.bsk then none else s.breakpoint b c.pc with
      | some n =>
        if s.fld .benDbgCtl b.val 5 5 = 1 then s.halt b (BitVec.ofNat 4 (4 + n))
        else s.finish b f (.raise s decode { code := causeBreak })
      | none =>
        if !taken then s.finish b f (.done s 1 (f.long || f.guessed))
        else if f.illegal then s.finish b f (.raise s decode { code := causeIllegal })
        else if f.reserved then s.finish b f (.raise s decode { code := causeReserved })
        else
          match f.regs.find? fun r => r ≠ 0 ∧ c.pendingScalar.contains r with
          | some r => s.finish b f (.stall s (.scalar r))
          | none => s.finish b f (body s)

/-- Completes an instruction whose stall has ended: the core's `f` effect, `cyc` A-cycles, and the loop-end decision at its
single word. -/
def State.resume (s : State) (b : BenchId) (cyc : Nat) (g : Core → Core) : State :=
  let s' := s.updCore b g
  State.finish s b { word := 0 } (.done s' cyc false)

/-- Raises for an instruction whose stall has ended. -/
def State.resumeRaise (s : State) (b : BenchId) (word : W36) (cyc : Nat) (c : Cause) : State :=
  State.finish s b { word } (.raise s cyc c)

end Sys2Proof.Machine
end

