-- ==== Sys2Proof/Machine/Control.lean ====
section
/-! DEFINITION. Scalar bench-store accesses, program-store writes, control transfers, loops, special registers, the exception
instructions and the debug hooks (02 R51, R56-R62, R66-R69, R74-R82, R86-R88; 03 R91, R92, R98-R103, R534). -/

namespace Sys2Proof.Machine

/-! ## Watchpoints (02 R87) -/

/-- Watchpoint `n` covers one of the `len` bytes from `a` in space `sp` (0 bench store, 1 device virtual). -/
def State.watchCovers (s : State) (b : BenchId) (n sp a len : Nat) : Bool :=
  let cfg := s.reg ⟨.benWpCfg, b.val, n⟩
  let size := min 52 (bits cfg 13 8)
  let base := (s.reg ⟨.benWpAddrHi, b.val, n⟩).toNat * 2 ^ 32 + (s.reg ⟨.benWpAddrLo, b.val, n⟩).toNat
  let lo := base / 2 ^ size * 2 ^ size
  bits cfg 2 2 == sp && decide (lo < a + len) && decide (a < lo + 2 ^ size)

/-- The lowest enabled watchpoint that matches an access; `r` and `w` say what the access does. An atomic operation does both
and matches either bit. Nothing matches while BSK is 1 (03 R106). -/
def State.watchpoint (s : State) (b : BenchId) (sp a len : Nat) (r w : Bool) : Option Nat :=
  if (s.bench b).core.bsk then none
  else
    (List.range 2).find? fun n =>
      let cfg := s.reg ⟨.benWpCfg, b.val, n⟩
      (s.reg ⟨.benDbgCtl, b.val, 0⟩).getLsbD (6 + n) && s.watchCovers b n sp a len
        && ((r && cfg.getLsbD 0) || (w && cfg.getLsbD 1))

/-- What a watchpoint match does (02 R87): a halt, or Breakpoint, subcause 0x01, with the watched address. -/
def State.watchBody (s : State) (b : BenchId) (n cyc : Nat) (addr : W64) (info : W32) : Body :=
  if s.fld .benDbgCtl b.val 5 5 = 1 then .halt s (BitVec.ofNat 4 (8 + n))
  else .raise s cyc { code := causeBreak, sub := 1, addr, info }

/-! ## Split accesses (02 R58) -/

/-- The pieces of a scalar access: one, or the halves at an 8-byte boundary, each with its address and length. -/
def accessParts (ea : W64) (n : Nat) : List (W64 × Nat) :=
  let o := ea.toNat % 8
  if o + n ≤ 8 then [(ea, n)] else [(ea, 8 - o), (ea + BitVec.ofNat 64 (8 - o), n - (8 - o))]

/-- The position in a list of pieces as INFO of the frame: 1 for the upper half of a split access (03 table 3.2). -/
def infoOf (k : Nat) : W32 := BitVec.ofNat 32 k

/-- The first piece, with its position, that satisfies `p`. -/
def firstPart (p : W64 → Nat → Bool) : Nat → List (W64 × Nat) → Option (Nat × W64)
  | _, [] => none
  | k, (a, n) :: r => if p a n then some (k, a) else firstPart p (k + 1) r

/-- The first piece that a watchpoint matches: its position, address and the watchpoint. -/
def State.firstWatch (s : State) (b : BenchId) (sp : Nat) (r w : Bool) : Nat → List (W64 × Nat) → Option (Nat × W64 × Nat)
  | _, [] => none
  | k, (a, n) :: rest =>
    match s.watchpoint b sp (if sp = 0 then a.toNat % 0x200000 else a.toNat) n r w with
    | some m => some (k, a, m)
    | none => State.firstWatch s b sp r w (k + 1) rest

/-! ## The scalar data cache (02 R57, 08 R240) -/

/-- The cache holds line `l` of kind `sp`. -/
def Bench.cached (x : Bench) (sp l : Nat) : Bool := x.dcache.any fun c => c.space = sp ∧ c.line = l

/-- Installs a line, newest first, within 512 lines (DESIGN CHOICE, log 12). -/
def Bench.install (x : Bench) (c : CacheLine) : Bench :=
  if x.cached c.space c.line then x else { x with dcache := (c :: x.dcache).take 512 }

/-- Installs a bench-store line: its presence alone counts, since the cache stays coherent with the store (08 R240). -/
def Bench.installStore (x : Bench) (a : Nat) : Bench := x.install { space := 0, line := wrapStore a / 64, data := [] }

/-- A-cycles, beyond Fetch, of an LD whose pieces are `parts` (table 2.7). A split access counts as a hit when the cache holds both
lines, else as a miss (DEDUCED, log 138). -/
def State.ldCycles (s : State) (b : BenchId) (parts : List (W64 × Nat)) : Nat :=
  let hit := parts.all fun p => (s.bench b).cached 0 (wrapStore p.1.toNat / 64)
  let split := 1 < parts.length
  if s.plumb b then 7 + (if split then 4 else 0)
  else if hit then 4 + (if split then 1 else 0)
  else 8 + (if split then 4 else 0)

/-! ## LD and ST (02 R56, R58) -/

/-- The checks of orders 6, 7 and 9 of table 3.6 on a bench-store access. DEDUCED, log 27. -/
def State.storeChecks (s : State) (b : BenchId) (ea : W64) (n cyc : Nat) (r w : Bool) (parts : List (W64 × Nat)) :
    Option Body :=
  let c := (s.bench b).core
  if !c.len && ea.toNat % n ≠ 0 then some (.raise s cyc { code := causeMisaligned, addr := ea })
  else
    match s.firstWatch b 0 r w 0 parts with
    | some (k, a, m) => some (s.watchBody b m cyc a (infoOf k))
    | none =>
      match firstPart (fun a n => s.guarded b c.pl (a.toNat % 0x200000) n) 0 parts with
      | some (k, a) => some (.raise s cyc { code := causePrivilege, sub := 5, addr := a, info := infoOf k })
      | none => none

/-- LD (R56). -/
def ldBody (b : BenchId) (f : FmtM) (s : State) : Body :=
  let c := (s.bench b).core
  let n := sizeOf_ f.sz
  let ea := c.ea f.ra f.off
  let parts := accessParts ea n
  let cyc := s.ldCycles b parts
  let chk := if s.plumb b then 6 else if (s.bench b).cached 0 (wrapStore ea.toNat / 64) then 3 else 7
  match s.storeChecks b ea n chk true false parts with
  | some e => e
  | none =>
    match firstPart (fun a n => (s.bench b).storePoisoned (a.toNat % 0x200000) n) 0 parts with
    | some (k, a) => .raise s (if k = 0 then chk else cyc - 1) { code := causeBus, sub := subPoison, addr := a, info := infoOf k }
    | none =>
      let v := extendLoad n (f.sx == 1) (leVal ((s.bench b).readStore (ea.toNat % 0x200000) n))
      let plumb := s.plumb b
      .done (s.updBench b fun x =>
        let x := if plumb then x else parts.foldl (fun x p => x.installStore p.1.toNat) x
        { x with core := x.core.wr f.rt v }) cyc false

/-- ST (R56). -/
def stBody (b : BenchId) (f : FmtM) (s : State) : Body :=
  let c := (s.bench b).core
  let n := sizeOf_ f.sz
  let ea := c.ea f.ra f.off
  let parts := accessParts ea n
  let base := if s.plumb b then 7 else 4
  let split := if 1 < parts.length then (if s.plumb b then 4 else if parts.all fun p => (s.bench b).cached 0 (wrapStore p.1.toNat / 64) then 1 else 4) else 0
  match s.storeChecks b ea n (base - 1) false true parts with
  | some e => e
  | none => .done (s.updBench b fun x => x.writeStore (ea.toNat % 0x200000) (leBytes n (c.rd f.rt).toNat)) (base + split) false

/-- LD. -/
def execLd (b : BenchId) (f : FmtM) (s : State) : Host.Outcome State Fault Refusal :=
  act s (issue b { word := f.word 0x20, regs := [f.rt, f.ra] } (ldBody b f))

/-- ST; SX = 1 is illegal. -/
def execSt (b : BenchId) (f : FmtM) (s : State) : Host.Outcome State Fault Refusal :=
  act s (issue b { word := f.word 0x21, illegal := f.sx != 0, regs := [f.rt, f.ra] } (stBody b f))

/-! ## STP and PSYNC (02 R61, R62, R67-R69) -/

/-- The level that BEN_PGUARD asks of an STP to word `a` (R62). -/
def State.stpLevel (s : State) (b : BenchId) (a : Nat) : Nat :=
  let mlim := s.fld .benPguard b.val 15 0
  let jlim := s.fld .benPguard b.val 31 16
  if a < mlim then 2 else if a < max jlim mlim then 1 else 0

/-- STP. DEDUCED, log 22. -/
def stpBody (b : BenchId) (f : FmtS) (s : State) : Body :=
  let c := (s.bench b).core
  let a : BitVec 16 := (c.rd f.ra + f.off.signExtend 64).setWidth 16
  if c.pl.toNat < s.stpLevel b a.toNat then
    .raise s 3 { code := causePrivilege, sub := 1, addr := a.setWidth 64 }
  else
    let hit := c.lookahead.any fun e => e.addr = a
    let s := s.updBench b fun x =>
      let x := x.psWrite a ((c.rd f.rs).setWidth 36)
      { x with core := { x.core with lookahead := x.core.lookahead.filter fun e => e.addr ≠ a } }
    if hit then .snoop s 4 else .done s 4 false

/-- STP. -/
def execStp (b : BenchId) (f : FmtS) (s : State) : Host.Outcome State Fault Refusal :=
  act s (issue b { word := f.word 0x24, regs := [f.rs, f.ra] } (stpBody b f))

/-- PSYNC discards the lookahead buffer. -/
def execPsync (b : BenchId) (f : FmtN) (s : State) : Host.Outcome State Fault Refusal :=
  act s (issue b { word := f.word 0x25, illegal := f.rsv != 0 }
    fun s => .done (s.updCore b fun c => { c with lookahead := [] }) 3 true)

/-! ## Control transfers (02 R51, R66) -/

/-- BR. -/
def execBr (b : BenchId) (f : FmtB) (s : State) : Host.Outcome State Fault Refusal :=
  let guessed := f.cond == 0 || f.disp.msb
  act s (issue b { word := f.word 0x28, illegal := f.rd != 0 || f.rsv != 0, guessed }
    fun s => .jump s 3 ((s.bench b).core.pc + f.disp) (!guessed))

/-- JAL. -/
def execJal (b : BenchId) (f : FmtB) (s : State) : Host.Outcome State Fault Refusal :=
  act s (issue b { word := f.word 0x29, illegal := f.rsv != 0, regs := [f.rd], guessed := true }
    fun s =>
      let pc := (s.bench b).core.pc
      .jump (s.updCore b fun c => c.wr f.rd ((pc + 1).setWidth 64)) 3 (pc + f.disp) false)

/-- JR. -/
def execJr (b : BenchId) (f : FmtJ) (s : State) : Host.Outcome State Fault Refusal :=
  act s (issue b { word := f.word 0x2A, illegal := f.rsv != 0, regs := [f.rd, f.ra] }
    fun s =>
      let c := (s.bench b).core
      .jump (s.updCore b fun c => c.wr f.rd ((c.pc + 1).setWidth 64)) 3 ((c.rd f.ra).setWidth 16) true)

/-! ## Loops (02 R74-R79) -/

/-- The illegal cases of LOOP and LOOPI (R74). -/
def Core.loopIllegal (c : Core) (len : BitVec 12) : Bool :=
  let le := c.pc.toNat + len.toNat
  len == 0 || decide (65535 < le) || decide (4 ≤ c.loops.length)
    || (match c.loops with
        | l :: _ => decide (l.ls.toNat ≤ c.pc.toNat + 1) && decide (c.pc.toNat + 1 ≤ l.le.toNat) && decide (l.le.toNat < le)
        | [] => false)
    || c.loops.any fun l => l.le = c.pc

/-- A LOOP or LOOPI of count `n` (R75). -/
def loopBody (b : BenchId) (n : W32) (len : BitVec 12) (s : State) : Body :=
  let pc := (s.bench b).core.pc
  let le := pc + len.setWidth 16
  if n = 0 then .jump s 3 (le + 1) true
  else .done (s.updCore b fun c => { c with loops := { lc := n, ls := pc + 1, le } :: c.loops }) 3 false

/-- LOOP: count RA[31:0]. -/
def execLoop (b : BenchId) (f : FmtL) (s : State) : Host.Outcome State Fault Refusal :=
  act s (issue b
    { word := f.word 0x2B, illegal := f.rsv1 != 0 || f.rsv2 != 0 || (s.bench b).core.loopIllegal f.len, regs := [f.ra] }
    fun s => loopBody b (((s.bench b).core.rd f.ra).setWidth 32) f.len s)

/-- LOOPI: count CNT12. -/
def execLoopi (b : BenchId) (f : FmtLI) (s : State) : Host.Outcome State Fault Refusal :=
  act s (issue b { word := f.word 0x2C, illegal := (s.bench b).core.loopIllegal f.len }
    (loopBody b (f.cnt.setWidth 32) f.len))

/-- LPOP removes the NM1 + 1 innermost loops. One that stands at LE makes its own loop-end decision on the loops that are left (DEDUCED,
log 137). -/
def execLpop (b : BenchId) (f : FmtLP) (s : State) : Host.Outcome State Fault Refusal :=
  act s (issue b
    { word := f.word 0x2D, illegal := f.rsv != 0 || decide ((s.bench b).core.loops.length < f.nm1.toNat + 1) }
    fun s => .done (s.updCore b fun c => { c with loops := c.loops.drop (f.nm1.toNat + 1) }) 3 false)

/-! ## Special registers (02 R80-R82, 03 R91, R92) -/

/-- The bench number, shop and hall as BENCHID shows them. -/
def benchIdWord (b : BenchId) : W64 := BitVec.ofNat 64 (b.val + (shopOf b).val * 256 + (hallOf b).val * 4096)

/-- A change of plumb mode (R82): the lookahead buffer is discarded; leaving it invalidates the scalar data cache. -/
def Bench.setPlb (x : Bench) (v : Bool) : Bench :=
  if v = x.core.plb then x
  else
    { x with
      core := { x.core with plb := v, lookahead := [], fetchDue := true }
      dcache := if v then x.dcache else [] }

/-- The value of special register `n`; none: not listed in table 2.8, or LC, LS, LE with no loop active. `cyc` is CYCLE. -/
def State.special (s : State) (b : BenchId) (n : BitVec 8) (cyc : W64) : Option W64 :=
  let c := (s.bench b).core
  let k := s.bank b (if c.pl = 0 then 1 else c.pl)
  match n.toNat with
  | 0x00 => some (BitVec.ofNat 64 ((if s.plumb b then 2 else 0) + (if c.len then 1 else 0)))
  | 0x01 => some (c.flags.toBits.setWidth 64)
  | 0x02 => c.loops.head?.map fun l => l.lc.setWidth 64
  | 0x03 => c.loops.head?.map fun l => l.ls.setWidth 64
  | 0x04 => c.loops.head?.map fun l => l.le.setWidth 64
  | 0x05 => some (BitVec.ofNat 64 c.loops.length)
  | 0x06 => some (benchIdWord b)
  | 0x07 => some cyc
  | 0x08 => some (s.status b)
  | 0x10 => some k.xsp
  | 0x11 => some k.xsl
  | 0x12 => some (k.xbase.setWidth 64)
  | _ => none

/-- Changes the innermost loop. -/
def Core.setLoop (c : Core) (g : LoopEntry → LoopEntry) : Core :=
  match c.loops with
  | l :: r => { c with loops := g l :: r }
  | [] => c

/-- Writes special register `n`, which table 2.8 lets MSET write, in the bank of the current level. DEDUCED, log 23. -/
def State.setSpecial (s : State) (b : BenchId) (n : BitVec 8) (v : W64) : State :=
  let pl := (s.bench b).core.pl
  match n.toNat with
  | 0x00 =>
    let forced := s.fld .benDbgCtl b.val 4 4 == 1
    s.updBench b fun x =>
      let x := if forced then x else x.setPlb (v.getLsbD 1)
      { x with core := { x.core with len := v.getLsbD 0 } }
  | 0x01 => s.updCore b fun c => { c with flags := Flags.ofBits (v.setWidth 7) }
  | 0x02 => s.updCore b fun c => c.setLoop fun l => { l with lc := v.setWidth 32 }
  | 0x03 => s.updCore b fun c => c.setLoop fun l => { l with ls := v.setWidth 16 }
  | 0x04 => s.updCore b fun c => c.setLoop fun l => { l with le := v.setWidth 16 }
  | 0x10 => s.setBank b pl { s.bank b pl with xsp := v }
  | 0x11 => s.setBank b pl { s.bank b pl with xsl := v }
  | 0x12 => s.setBank b pl { s.bank b pl with xbase := v.setWidth 16 }
  | _ => s

/-- LC, LS or LE with no loop active. -/
def Core.noLoop (c : Core) (n : BitVec 8) : Bool := 2 ≤ n.toNat && n.toNat ≤ 4 && c.loops.isEmpty

/-- The Journeyman stack area that a bank gives overlaps the M range (03 R534). -/
def State.areaGuarded (s : State) (b : BenchId) (k : Bank) : Bool :=
  let sp := frameAddr k.xsp
  let sl := frameAddr k.xsl
  let g := s.guardRange .benSguardM b
  decide (max (sl - 256) g.1 < min (max sp sl) g.2)

/-- MSET. The check of R534 is made in Execute (DEDUCED, log 138). One of LC, LS or LE that stands at LE makes its own loop-end decision on
the values that it has written (DEDUCED, log 137). -/
def msetBody (b : BenchId) (f : FmtC) (s : State) : Body :=
  let c := (s.bench b).core
  let v := c.rd f.rx
  let n := f.sreg
  if 0x10 ≤ n.toNat && c.pl = 0 then .raise s 1 { code := causePrivilege, sub := 2 }
  else
    let k := s.bank b 1
    let k' := if n = 0x10 then { k with xsp := v } else { k with xsl := v }
    if (n = 0x10 || n = 0x11) && c.pl = 1 && s.areaGuarded b k' then
      .raise s 2 { code := causePrivilege, sub := 5, addr := v }
    else
      let s' := s.setSpecial b n v
      .done s' 3 ((s'.bench b).core.plb != c.plb)

/-- MSET. -/
def execMset (b : BenchId) (f : FmtC) (s : State) : Host.Outcome State Fault Refusal :=
  let n := f.sreg.toNat
  act s (issue b
    { word := f.word 0x30
      illegal := f.rsv != 0 || !(n ≤ 4 || (0x10 ≤ n && n ≤ 0x12)) || (s.bench b).core.noLoop f.sreg
      regs := [f.rx] } (msetBody b f))

/-- MGET. CYCLE is sampled in the Execute state. DEDUCED, log 21. -/
def mgetBody (b : BenchId) (f : FmtC) (s : State) : Body :=
  let c := (s.bench b).core
  if 0x10 ≤ f.sreg.toNat && c.pl = 0 then .raise s 1 { code := causePrivilege, sub := 2 }
  else
    let v := (s.special b f.sreg (c.cycle + BitVec.ofNat 64 (s.fetchCycles b + 2))).getD 0
    .done (s.updCore b fun c => c.wr f.rx v) 3 false

/-- MGET. -/
def execMget (b : BenchId) (f : FmtC) (s : State) : Host.Outcome State Fault Refusal :=
  let n := f.sreg.toNat
  act s (issue b
    { word := f.word 0x31
      illegal := f.rsv != 0 || !(n ≤ 8 || (0x10 ≤ n && n ≤ 0x12)) || (s.bench b).core.noLoop f.sreg
      regs := [f.rx] } (mgetBody b f))

/-! ## TRAP, RETX and RESEAL (03 R98-R103) -/

/-- TRAP. -/
def execTrap (b : BenchId) (f : FmtTrap) (s : State) : Host.Outcome State Fault Refusal :=
  act s (issue b { word := f.word 0x32, illegal := f.rsv != 0 }
    fun s =>
      let pl := (s.bench b).core.pl
      .trap s 3 (if f.tgt = 1 then 2 else if pl = 0 then 1 else pl) (f.code.setWidth 32))

/-- What a popped frame holds up runs on from its raising entry, and a held operation is tried again (03 R107, 07 R235). A queue in which
another raised entry still stands, pending or with its frame, stays frozen there. -/
def Bench.unfreeze (x : Bench) : Option Holder → Bench
  | none => x
  | some .lathe => { x with lathe := { x.lathe with frozen := false } }
  | some h =>
    let more := !x.core.deferForge.isEmpty || x.core.frames.any fun e => match e.2 with | none | some .lathe => false | _ => true
    { x with forge := { x.forge with
        frozen := more
        arrayHeld := x.forge.arrayHeld && h != .array
        loaderHeld := x.forge.loaderHeld && h != .loader
        ladleHeld := x.forge.ladleHeld && h != .ladle } }

/-- 64-bit word `k` of the frame at `f`. -/
def Bench.frameWord (x : Bench) (f k : Nat) : W64 := BitVec.ofNat 64 (leVal (x.readStore (f + 8 * k) 8))

/-- The loop entry of a frame word. -/
def loopOfWord (w : W64) : LoopEntry :=
  { lc := w.setWidth 32, ls := w.extractLsb' 32 16, le := w.extractLsb' 48 16 }

/-- RETX returns from the top frame of the current level's bank. -/
def retxBody (b : BenchId) (f : FmtRetx) (s : State) : Body :=
  let x := s.bench b
  let c := x.core
  if c.pl = 0 then .raise s 1 { code := causePrivilege, sub := 3 }
  else
    let l := c.pl
    let k := s.bank b l
    let fa := frameAddr k.xsp
    let addr := BitVec.ofNat 64 fa
    if x.storePoisoned fa 96 then .raise s 10 { code := causeBus, sub := subPoison, addr }
    else
      let st := x.frameWord fa 1
      let depth := wbits st 18 16
      if seal16 c.xkey st c.xdepth ≠ (x.frameWord fa 2).setWidth 16 then .raise s 10 { code := causeSeal, sub := 1, addr }
      else if wbits st 1 0 > l.toNat || wbits st 1 0 = 3 then .raise s 10 { code := causeSeal, sub := 2, addr }
      else if 4 < depth then .raise s 10 { code := causeSeal, sub := 3, addr }
      else
        let loops := ((List.range depth).map fun j => loopOfWord (x.frameWord fa (8 + j))).reverse
        let pc := (x.frameWord fa 0).setWidth 16 + f.adv.setWidth 16
        let p := if f.adv = 0 then (loops, pc) else loopEnd (pc - 1) loops pc
        let forced := s.fld .benDbgCtl b.val 4 4 == 1
        let frozen := (c.frames.find? fun e => e.1 = c.xdepth).bind (·.2)
        let s := s.setBank b l { k with xsp := ((x.frameWord fa 7).setWidth 32).setWidth 64 }
        let s := s.updBench b fun x =>
          let x := { x with core := { x.core with frames := c.frames.filter fun e => e.1 ≠ c.xdepth } }
          let x := (if forced then x else x.setPlb (st.getLsbD 4)).unfreeze frozen
          { x with
            core := { x.core with
              pl := st.setWidth 2
              ien := st.extractLsb' 20 4
              flags := Flags.ofBits (st.extractLsb' 8 7)
              len := st.getLsbD 5
              lda := st.getLsbD 3
              loops := p.1
              xdepth := c.xdepth - 1 } }
        .ret s 11 p.2 (st.getLsbD 6)

/-- RETX; ADV = 3 is illegal. -/
def execRetx (b : BenchId) (f : FmtRetx) (s : State) : Host.Outcome State Fault Refusal :=
  act s (issue b { word := f.word 0x33, illegal := f.rsv != 0 || f.adv == 3 } (retxBody b f))

/-- RESEAL. -/
def resealBody (b : BenchId) (f : FmtReseal) (s : State) : Body :=
  let c := (s.bench b).core
  let v := c.rd f.ra
  if c.pl = 0 then .raise s 1 { code := causePrivilege, sub := 3 }
  else if wbits v 1 0 > c.pl.toNat || wbits v 1 0 = 3 then .raise s 1 { code := causePrivilege, sub := 4 }
  else .done (s.updCore b fun c => c.wr f.rd ((seal16 c.xkey v c.xdepth).setWidth 64)) 5 false

/-- RESEAL. -/
def execReseal (b : BenchId) (f : FmtReseal) (s : State) : Host.Outcome State Fault Refusal :=
  act s (issue b { word := f.word 0x34, illegal := f.rsv != 0, regs := [f.rd, f.ra] } (resealBody b f))

/-! ## Count match (03 BEN_XCMP) -/

/-- The 64-bit compare value. -/
def State.xcmp (s : State) (b : BenchId) : W64 := s.reg ⟨.benXcmpHi, b.val, 0⟩ ++ s.reg ⟨.benXcmpLo, b.val, 0⟩

/-- COUNT_MATCH: CYCLE reaches the compare value; the cause becomes pending, once. A-cycles that no command names may have
passed (DEDUCED, log 13). -/
def execCountMatch (b : BenchId) (s : State) : Host.Outcome State Fault Refusal :=
  act s fun s =>
    if !s.aclock b || (s.bench b).core.countDone then s
    else
      let v := s.xcmp b
      s.updCore b fun c =>
        { c with cycle := if c.cycle.toNat < v.toNat then v else c.cycle, countDone := true, pendCount := true }

/-! ## Debug hooks (02 R86, R88) -/

/-- The fence in a stall includes a frozen queue in its wait set (08 R256). -/
def Bench.fenceFrozen (x : Bench) (w : W36) : Bool :=
  w.extractLsb' 24 8 == 0x3C#8 && ((w.getLsbD 20 && x.lathe.frozen) || (w.getLsbD 19 && x.forge.frozen))

/-- The core stands at an interrupt point (02 R55; 08 R256, 09 R292). -/
def Bench.atPoint (x : Bench) : Bool :=
  match x.core.stall with
  | none | some (.queue _) | some (.scalar _) | some (.bell ..) | some (.fault ..) => true
  | some (.fence w) => x.fenceFrozen w
  | _ => false

/-- HALT: a write of 1 to BEN_DBG_CTL.HALT. The core halts at its next interrupt point. -/
def State.haltWrite (s : State) (b : BenchId) : State :=
  let s := s.setFld .benDbgCtl b.val 0 0 1
  let x := s.bench b
  if x.core.running && !x.core.halted && x.atPoint then s.halt b 1 else s

/-- A write of 0 to BEN_DBG_CTL.HALT resumes the core. -/
def State.haltClear (s : State) (b : BenchId) : State :=
  let s := s.setFld .benDbgCtl b.val 0 0 0
  if (s.bench b).core.halted then
    (s.updCore b fun c =>
      { c with halted := false, stepping := false, why := 0, cycle := c.cycle + Config.stallCycles s.draws }).drawn
  else s

/-- A write of 1 to BEN_DBG_CTL.STEP while halted lets one instruction or entry execute. -/
def State.stepWrite (s : State) (b : BenchId) : State :=
  if (s.bench b).core.halted then s.updCore b fun c => { c with stepping := true } else s

/-- The register that BEN_DBG_SEL selects; 0 when it names none. DEDUCED, log 143. -/
def State.debugRead (s : State) (b : BenchId) : W64 :=
  let sel := s.reg ⟨.benDbgSel, b.val, 0⟩
  let c := (s.bench b).core
  if !c.halted then 0
  else if sel.getLsbD 8 then
    (if 0x10 ≤ bits sel 7 0 && c.pl = 0 then 0 else (s.special b (sel.setWidth 8) c.cycle).getD 0)
  else c.rd (sel.setWidth 5)

/-- A write of BEN_DBG_DATA: the selected register takes the new half at once, while halted (R88). Read-only special registers
keep their values (DEDUCED, log 14). -/
def State.debugWrite (s : State) (b : BenchId) (hi : Bool) (v : W32) : State :=
  let sel := s.reg ⟨.benDbgSel, b.val, 0⟩
  let c := (s.bench b).core
  if !c.halted then s
  else
    let old := s.debugRead b
    let x : W64 := if hi then v ++ old.setWidth 32 else (old.extractLsb' 32 32) ++ v
    if sel.getLsbD 8 then (if 0x10 ≤ bits sel 7 0 && c.pl = 0 then s else s.setSpecial b (sel.setWidth 8) x)
    else s.updCore b fun c => c.wr (sel.setWidth 5) x

/-- HALT. -/
def execHalt (b : BenchId) (s : State) : Host.Outcome State Fault Refusal := act s fun s => s.haltWrite b

/-- DEBUG_DATA_WRITE. -/
def execDebugDataWrite (b : BenchId) (hi : Bool) (v : W32) (s : State) : Host.Outcome State Fault Refusal :=
  act s fun s => s.debugWrite b hi v

end Sys2Proof.Machine
end

