-- ==== Sys2Proof/Machine/Engine.lean ====
section
/-! DEFINITION. Engine instructions: their words, their checks in Decode, the registers and the tiles, plates and v-registers they
use, their dispatch, the scoreboard and deferred causes (02 R70-R73; 04 R120, R124, R125; 05 R166-R181; 07 R215, R226, R533; 03
R107). -/

namespace Sys2Proof

open Sys2Proof.Machine

/-! ## Codes -/

/-- OPC and FN of a format VV operation (04 table 4.4). -/
def VvOp.code : VvOp → BitVec 8 × BitVec 3
  | .vadd => (0x50, 0) | .vsub => (0x50, 1) | .vrsub => (0x50, 2) | .vand => (0x50, 3) | .vor => (0x50, 4)
  | .vxor => (0x50, 5) | .vsll => (0x50, 6) | .vsrl => (0x50, 7)
  | .vsra => (0x51, 0) | .vmin => (0x51, 1) | .vmax => (0x51, 2) | .vminu => (0x51, 3) | .vmaxu => (0x51, 4)
  | .vmul => (0x51, 5) | .vmulh => (0x51, 6) | .vmulhu => (0x51, 7)
  | .vaddsat => (0x52, 0) | .vaddsatu => (0x52, 1) | .vsubsat => (0x52, 2) | .vsubsatu => (0x52, 3)
  | .vavg => (0x52, 4) | .vavgu => (0x52, 5) | .vfrmul => (0x52, 6)
  | .vshrr => (0x53, 0) | .vshrra => (0x53, 1) | .vclipnu => (0x53, 2) | .vclipn => (0x53, 3)
  | .vfadd => (0x58, 0) | .vfsub => (0x58, 1) | .vfmul => (0x58, 2) | .vfdiv => (0x58, 3) | .vfsqrt => (0x58, 4)
  | .vfminnum => (0x58, 5) | .vfmaxnum => (0x58, 6)
  | .vfmin => (0x59, 0) | .vfmax => (0x59, 1) | .vfabs => (0x59, 2) | .vfneg => (0x59, 3)
  | .vfma => (0x5A, 0) | .vfms => (0x5A, 1) | .vfnma => (0x5A, 2) | .vfnms => (0x5A, 3)
  | .vceq => (0x5C, 0) | .vcne => (0x5C, 1) | .vclt => (0x5C, 2) | .vcge => (0x5C, 3) | .vcltu => (0x5C, 4)
  | .vcgeu => (0x5C, 5)
  | .vfceq => (0x5D, 0) | .vfclt => (0x5D, 1) | .vfcle => (0x5D, 2) | .vfcun => (0x5D, 3)
  | .vrsum => (0x64, 0) | .vrmax => (0x64, 1) | .vrmin => (0x64, 2) | .vrmaxu => (0x64, 3) | .vrminu => (0x64, 4)
  | .vfrsum => (0x64, 5) | .vfrmax => (0x64, 6) | .vfrmin => (0x64, 7)
  | .mand => (0x68, 0) | .mor => (0x68, 1) | .mxor => (0x68, 2) | .mandn => (0x68, 3) | .mnot => (0x68, 4)
  | .mset => (0x68, 5) | .mclr => (0x68, 6)
  | .vmpop => (0x69, 0) | .vmfirst => (0x69, 1)
  | .vmv => (0x6C, 0) | .vmerge => (0x6C, 1) | .vext => (0x6C, 2) | .vins => (0x6C, 3) | .vid => (0x6C, 4)

/-- OPC of a format VM operation. -/
def VmOp.code : VmOp → BitVec 8
  | .vld => 0x44 | .vst => 0x45 | .vlds => 0x46 | .vsts => 0x47 | .vgath => 0x48 | .vscat => 0x49 | .vgathFf => 0x4A

/-- A memory operation that stores. -/
def VmOp.stores : VmOp → Bool
  | .vst | .vsts | .vscat => true
  | _ => false

/-- A memory operation with indices. -/
def VmOp.indexed : VmOp → Bool
  | .vgath | .vscat | .vgathFf => true
  | _ => false

/-- The instruction word. -/
def EngInstr.word : EngInstr → W36
  | .vsetl f => f.word 0x40
  | .vcsr f => f.word 0x41
  | .vm op f => f.word op.code
  | .vv op f => f.word op.code.1 op.code.2
  | .vcvt f => f.word 0x60
  | .vtld f => f.word 0x6E
  | .vtst f => f.word 0x6F
  | .fop f => f.word 0x80
  | .fgauge f => f.word 0x81
  | .pload f => f.word 0x82
  | .tsync f => f.word 0x83
  | .seed f => f.word 0x84
  | .drain clear f => f.word (if clear then 0x89 else 0x88)

/-- The forge queue takes the instruction; else the lathe queue (R70). -/
def EngInstr.forge : EngInstr → Bool
  | .fop _ | .fgauge _ | .pload _ | .tsync _ | .seed _ | .drain .. => true
  | _ => false

/-! ## Vector types and groups -/

/-- Element width of a SEW code. -/
def sewBits (sew : BitVec 2) : Nat := 8 * 2 ^ sew.toNat

/-- Group size of a GRP code. -/
def grpSize (grp : BitVec 2) : Nat := 2 ^ grp.toNat

/-- VLENB (04 R114). -/
def vlenb : Nat := 4096

/-- VLMAX (04 R118). -/
def vlmax (sew grp : BitVec 2) : Nat := vlenb * 8 * grpSize grp / sewBits sew

/-- Registers of an operand of element width `w` (04 R125). -/
def groupOf (sew grp : BitVec 2) (w : Nat) : Nat :=
  if sewBits sew ≤ grpSize grp * w then grpSize grp * w / sewBits sew else 1

/-- Widths of the VCVT format codes 0-13 (04 table 4.8). -/
def fmtWidth (c : BitVec 4) : Nat :=
  match c.toNat with
  | 0 | 4 | 12 | 13 => 8
  | 1 | 5 | 10 | 11 => 16
  | 2 | 6 | 9 => 32
  | _ => 64

/-- The kind of a VV operation that its checks and fields follow. -/
inductive VvKind where
  /-- VD, VA and the second operand. `float`: needs SEW above 8. -/
  | arith (float : Bool)
  /-- VFSQRT: VB is reserved. -/
  | sqrt
  /-- VFABS and VFNEG: no second operand. -/
  | unary
  /-- The clips: VA is 2 SEW wide. -/
  | clip
  | compare (float : Bool)
  | reduce (float : Bool)
  | mask (sources : Nat)
  | maskScalar
  | move | merge | extract | insert | index
  deriving DecidableEq, Repr

/-- The kind of each operation. -/
def VvOp.kind : VvOp → VvKind
  | .vclipnu | .vclipn => .clip
  | .vfsqrt => .sqrt
  | .vfabs | .vfneg => .unary
  | .vfadd | .vfsub | .vfmul | .vfdiv | .vfminnum | .vfmaxnum | .vfmin | .vfmax | .vfma | .vfms | .vfnma | .vfnms => .arith true
  | .vceq | .vcne | .vclt | .vcge | .vcltu | .vcgeu => .compare false
  | .vfceq | .vfclt | .vfcle | .vfcun => .compare true
  | .vrsum | .vrmax | .vrmin | .vrmaxu | .vrminu => .reduce false
  | .vfrsum | .vfrmax | .vfrmin => .reduce true
  | .mand | .mor | .mxor | .mandn => .mask 2
  | .mnot => .mask 1
  | .mset | .mclr => .mask 0
  | .vmpop | .vmfirst => .maskScalar
  | .vmv => .move
  | .vmerge => .merge
  | .vext => .extract
  | .vins => .insert
  | .vid => .index
  | _ => .arith false

/-- A v-register operand: first register, number of registers, element width. -/
structure VOpnd where
  reg : Nat
  n : Nat
  w : Nat
  deriving DecidableEq, Repr

/-- The operand's registers are aligned to a group of at most 8 (04 R124 items 3, 4). -/
def VOpnd.ok (o : VOpnd) : Bool := decide (o.n ≤ 8) && o.reg % o.n == 0

/-- Two operands share a register. -/
def VOpnd.meets (a b : VOpnd) : Bool := decide (a.reg < b.reg + b.n) && decide (b.reg < a.reg + a.n)

/-- A v-register operand of width `w` that starts at `r`. -/
def vOpnd (sew grp : BitVec 2) (r : R5) (w : Nat) : VOpnd := ⟨r.toNat, groupOf sew grp w, w⟩

/-- Destination v-register operands, and source ones, of a lathe instruction under a vector type (04 R125). -/
def EngInstr.vOpnds (sew grp : BitVec 2) : EngInstr → List VOpnd × List VOpnd
  | .vm op f =>
    let o (r : R5) (w : Nat) := vOpnd sew grp r w
    let idx := if op.indexed then [o f.rb (if f.ix = 1 then 64 else 32)] else []
    if op.stores then ([], o f.vd (sewBits sew) :: idx) else ([o f.vd (sewBits sew)], idx)
  | .vv op f =>
    let w := sewBits sew
    let o (r : R5) := vOpnd sew grp r w
    let b := if f.src = 0 then [o f.vb] else []
    match op.kind with
    | .arith _ => ([o f.vd], o f.va :: b)
    | .sqrt | .unary => ([o f.vd], [o f.va])
    | .clip => ([o f.vd], vOpnd sew grp f.va (2 * w) :: b)
    | .compare _ => ([], o f.va :: b)
    | .reduce _ => ([⟨f.vd.toNat, 1, w⟩], o f.va :: (if f.src = 0 then [⟨f.vb.toNat, 1, w⟩] else []))
    | .mask _ | .maskScalar => ([], [])
    | .move => ([o f.vd], b)
    | .merge => ([o f.vd], o f.va :: b)
    | .extract => ([], [o f.va])
    | .insert | .index => ([o f.vd], [])
  | .vcvt f => ([vOpnd sew grp f.vd (fmtWidth f.dfmt)], [vOpnd sew grp f.va (fmtWidth f.sfmt)])
  | .vtld f => ([vOpnd sew grp f.vd 32], [])
  | .vtst f => ([], [vOpnd sew grp f.vd 32])
  | _ => ([], [])

/-- v-register operands that an instruction's fields name and that it does not read: the checks of R124 items 3 and 4 cover these too, since
VD, VA and VB of 0x50-0x5B and 0x6C name groups (04 R125). -/
def EngInstr.vNamed (sew grp : BitVec 2) : EngInstr → List VOpnd
  | .vv op f =>
    let o (r : R5) := vOpnd sew grp r (sewBits sew)
    let b := if f.src = 0 then [o f.vb] else []
    match op.kind with
    | .unary => b
    | .move => [o f.va]
    | .index => o f.va :: b
    | _ => []
  | _ => []

/-- Bits [4:3] of an m-register field are not 0. -/
def mHigh (r : R5) : Bool := r.toNat / 8 != 0

/-- Illegal fields of a format VV operation under the vector type (04 R124-R130). -/
def vvIllegal (sew : BitVec 2) (op : VvOp) (f : FmtVV) : Bool :=
  let float := sew == 0 || f.src == 2
  f.src == 3 ||
    match op.kind with
    | .arith fp => fp && float
    | .sqrt => float || f.vb != 0
    | .unary => float
    | .clip => sew == 3
    | .compare fp => mHigh f.vd || (fp && float)
    | .reduce fp => f.src == 2 || (fp && sew == 0)
    | .mask n => mHigh f.vd || mHigh f.va || mHigh f.vb || f.ms != 0 || (decide (n < 2) && f.vb != 0)
        || (n == 0 && f.va != 0)
    | .maskScalar => mHigh f.va || f.vb != 0 || f.ms != 0
    | .merge => f.ms == 0
    | .extract | .insert => f.ms != 0 || f.mz != 0
    | .move | .index => false

/-- Pairs of FMT and GOP that FGAUGE allows (05 table 5.7). -/
def gaugeAllows (fmt : BitVec 4) (gop : BitVec 3) : Bool :=
  if gop.toNat = 5 then fmt.toNat == 9
  else fmt.toNat == 0 || fmt.toNat == 1 || (decide (5 ≤ fmt.toNat) && decide (fmt.toNat ≤ 8))

/-- Illegal in Decode, apart from reserved codes (04 R122, R124; 05 R167; 06 table 6.8; 07 R215). -/
def EngInstr.illegal (sew grp : BitVec 2) (i : EngInstr) : Bool :=
  let fields : Bool :=
    match i with
    | .vsetl f => f.rsv != 0
    | .vcsr f => f.rsv != 0 || decide (7 < f.csr.toNat) || (f.w == 1 && decide (f.csr.toNat < 4))
    | .vm op f =>
      f.rsv != 0 || ((op == .vld || op == .vst) && f.rb != 0) || (!op.indexed && f.ix != 0) || (op.stores && f.mz != 0)
    | .vv op f => vvIllegal sew op f
    | .vcvt f =>
      f.rsv != 0 || decide (13 < f.dfmt.toNat) || decide (13 < f.sfmt.toNat)
        || max (fmtWidth f.dfmt) (fmtWidth f.sfmt) != sewBits sew || (f.sat != 0 && decide (f.dfmt.toNat < 12))
    | .vtld f => f.rsv != 0 || sew != 2
    | .vtst f => f.rsv != 0 || sew != 2 || f.mz != 0
    | .fop f => decide (9 ≤ f.fmt.toNat) || f.rnd == 3 || (f.wide == 1 && f.t.getLsbD 0)
    | .fgauge f => decide (10 ≤ f.fmt.toNat) || (f.wide == 1 && f.t.getLsbD 0)
        || (decide (f.gop.toNat < 6) && !gaugeAllows f.fmt f.gop)
    | .pload f => f.rsv1 != 0 || f.rsv2 != 0
    | .tsync f => f.rsv != 0
    | .seed f => f.rsv1 != 0 || f.rsv2 != 0
    | .drain _ f => f.rsv != 0 || (f.wide == 1 && f.t.getLsbD 0)
  let o := i.vOpnds sew grp
  let gath : Bool := match i with | .vm .vgath _ | .vm .vgathFf _ => true | _ => false
  fields || (o.1 ++ o.2 ++ i.vNamed sew grp).any (fun x => !x.ok) || o.1.any fun d => o.2.any fun x => d.meets x && (x.w != d.w || gath)

/-- Reserved opcode in Decode: GOP 6 and 7 (05 R167). -/
def EngInstr.reserved : EngInstr → Bool
  | .fgauge f => decide (6 ≤ f.gop.toNat)
  | _ => false

/-- The scalar register that the engine writes (04 R119, R122, R129, R130; 05 R181). -/
def EngInstr.dest : EngInstr → Option R5
  | .vsetl f => some f.rd
  | .vcsr f => some f.rd
  | .vv op f => if op = .vext || op = .vmpop || op = .vmfirst then some f.vd else none
  | .tsync f => some f.rd
  | _ => none

/-- The scalar registers that the instruction reads (R70; 07 R533). -/
def EngInstr.reads : EngInstr → List R5
  | .vsetl f => [f.ra]
  | .vcsr f => if f.w = 1 then [f.ra] else []
  | .vm op f => if op = .vlds || op = .vsts then [f.ra, f.rb] else [f.ra]
  | .vv op f =>
    match op.kind with
    | .mask _ | .maskScalar => []
    | .extract => [f.vb]
    | .insert => [f.va, f.vb]
    | _ => if f.src = 1 then [f.vb] else []
  | .vcvt _ => []
  | .vtld f | .vtst f => [f.ra]
  | .fop f => [f.ra, f.rb]
  | .fgauge f => [f.ra, f.rb]
  | .pload f => [f.ra, f.rb]
  | .tsync f => [f.ra]
  | .seed f => [f.ra]
  | .drain _ f => [f.ra, f.rb, f.rc]

/-- An array operation (05 R175). -/
def EngInstr.array : EngInstr → Bool
  | .fop _ | .fgauge _ | .seed _ => true
  | _ => false

end Sys2Proof

namespace Sys2Proof.Machine

/-! ## The scoreboard (05 R177-R180, 07 R226) -/

/-- Resources by number: v-register n, tile 32 + t, plate 64 + p. -/
def vRes (o : VOpnd) : List Nat := (List.range o.n).map fun k => o.reg + k

/-- A tile, or a tile pair. -/
def tileRes (t : R5) (wide : BitVec 1) : List Nat :=
  if wide = 1 then [32 + t.toNat, 32 + t.toNat + 1] else [32 + t.toNat]

/-- Operand width of an FMT code (05 table 5.3). FMT 9 reads as if 8 (05 R172). -/
def fmtBits (fmt : BitVec 4) : Nat :=
  match fmt.toNat with
  | 0 | 1 => 16
  | 2 | 3 | 4 => 32
  | 8 => 4
  | _ => 8

/-- Last register plus one of a KIND 0 side (05 R169). The registers of FMT 9 hold eight steps in a byte (05 R172). -/
def sideEnd (side : W32) (n k : Nat) (fmt : BitVec 4) : Nat :=
  let k := if fmt = 9 then (k + 7) / 8 else k
  let bits_ := (bits side 23 12 + k) * n * fmtBits fmt
  bits side 28 24 + (bits_ + 32767) / 32768

/-- Resources that a side of an array operation reads. -/
def sideRes (side : W32) (n k : Nat) (fmt : BitVec 4) : List Nat :=
  match bits side 31 30 with
  | 0 => (List.range (min 32 (sideEnd side n k fmt) - bits side 28 24)).map fun j => bits side 28 24 + j
  | 1 => [64]
  | 2 => [65]
  | _ => []

/-- Resources that an array operation reads. -/
def arrayRes (e : Entry) (t : R5) (fmt : BitVec 4) (wide : BitVec 1) : List Nat :=
  let k := wbits e.b 15 0
  tileRes t wide ++ sideRes (e.a.setWidth 32) 64 k fmt
    ++ sideRes (e.a.extractLsb' 32 32) (if wide = 1 then 256 else 128) k fmt

/-- Output width of a drain descriptor's OFMT. -/
def drainWidth (desc : W64) : Nat := fmtWidth (desc.extractLsb' 26 4)

/-- Destination registers of a drain with DK 0 (07 R223). -/
def drainRegs (f : FmtD) (desc : W64) : Nat := (if f.wide = 1 then 256 else 128) * 64 * drainWidth desc / 32768

/-- What a queue entry reads and writes (05 table 5.9, 07 table 7.5). -/
def Entry.access (e : Entry) : List Nat × List Nat :=
  match e.instr with
  | .fop f => (arrayRes e f.t f.fmt f.wide, tileRes f.t f.wide)
  | .fgauge f => (arrayRes e f.t f.fmt f.wide, tileRes f.t f.wide)
  | .pload f => ([], [64 + f.pl.toNat])
  | .drain clear f =>
    let dst := if wbits e.b 31 30 = 0 then (List.range (min (drainRegs f e.b) (32 - f.ra.toNat))).map fun k => f.ra.toNat + k else []
    (tileRes f.t f.wide, dst ++ (if clear then tileRes f.t f.wide else []))
  | .vtld f => ([32 + f.t.toNat], (e.instr.vOpnds e.sew e.grp).1.flatMap vRes)
  | .vtst f => ((e.instr.vOpnds e.sew e.grp).2.flatMap vRes, [32 + f.t.toNat])
  | i =>
    let o := i.vOpnds e.sew e.grp
    (o.2.flatMap vRes, o.1.flatMap vRes)

/-- Two access sets conflict (05 R177). -/
def conflicts (a b : List Nat × List Nat) : Bool :=
  a.2.any (fun x => b.1.contains x || b.2.contains x) || b.2.any fun x => a.1.contains x

/-- The forge operations dispatched and not finished. -/
def Forge.ops (x : Forge) : List Entry :=
  x.queue ++ x.arrayNext.toList ++ x.loaderNext.toList ++ x.loader.toList ++ x.ladleNext.toList ++ (x.array.map (·.entry)).toList
    ++ (x.ladle.map (·.entry)).toList

/-- The drain in the ladle has ended its accesses: a DRAIN with DK 2 when it has read its last row, before the rows are acknowledged (07
table 7.5). -/
def LadleOp.readAll (o : LadleOp) : Bool :=
  64 ≤ o.rows && o.failed.isNone && (match o.entry.instr with | .drain clear _ => !clear | _ => false)

/-- The forge operations that have not ended their accesses (05 table 5.9). -/
def Forge.accessing (x : Forge) : List Entry :=
  if x.ladle.any (·.readAll) then x.ops.filter fun d => x.ladle.all fun o => o.entry.seq != d.seq else x.ops

/-- Entry `e` conflicts with no operation dispatched earlier that has not finished. Two lathe instructions, and two array
operations, are not ordered by the scoreboard (05 R178, R179). -/
def Bench.freeToBegin (x : Bench) (e : Entry) : Bool :=
  let other := x.forge.accessing.filter fun d => !(e.instr.array && d.instr.array)
  let ops := if e.instr.forge then other ++ x.lathe.queue else other
  ops.all fun d => e.seq ≤ d.seq || !conflicts e.access d.access

/-! ## Dispatch (R70, R72, R73) -/

/-- The Decode form of an engine instruction under the core's copy of the vector type (04 R120). -/
def engForm (c : Core) (i : EngInstr) : Form :=
  { word := i.word, illegal := i.illegal c.vsew c.vgrp, reserved := i.reserved, regs := i.reads ++ i.dest.toList }

/-- The queue of an engine is full or frozen. -/
def Bench.queueShut (x : Bench) (forge : Bool) : Bool :=
  if forge then x.forge.frozen || decide (16 ≤ x.forge.queue.length)
  else x.lathe.frozen || decide (16 ≤ x.lathe.queue.length)

/-- The entry that a dispatch writes; the instruction stands at `pc`. -/
def Core.entry (c : Core) (i : EngInstr) (pc : BitVec 16) : Entry :=
  { instr := i
    a := c.rd (i.word.extractLsb' 14 5)
    b := c.rd (i.word.extractLsb' 9 5)
    c := c.rd (i.word.extractLsb' 4 5)
    level := c.pl, epc := pc, seq := c.seq, sew := c.vsew, grp := c.vgrp, fpk := c.vfpk }

/-- VL as VSETL sets it (04 R118). -/
def vsetlVl (f : FmtVS) (avl : W64) : Nat := min avl.toNat (vlmax f.sew f.grp)

/-- The Decode state of VSETL updates the core's copy of the vector type (04 R120). DEDUCED, log 31. -/
def Core.retype (c : Core) : EngInstr → Core
  | .vsetl f => { c with vsew := f.sew, vgrp := f.grp, vfpk := f.fpk == 1 }
  | _ => c

/-- The core's part of a dispatch: the copy of the vector type, the pending mark, and VSETL's result, which the lathe forms as
the entry enters the queue (04 R119, R120). -/
def Core.dispatched (c : Core) (i : EngInstr) (e : Entry) : Core :=
  let c := { c with seq := c.seq + 1 }
  let c :=
    match i.dest with
    | some r => if r = 0 then c else { c with pendingScalar := r :: c.pendingScalar }
    | none => c
  let c := c.retype i
  match i with
  | .vsetl f =>
    { c with
      results := if f.rd = 0 then c.results else c.results ++ [(f.rd, BitVec.ofNat 64 (vsetlVl f e.a))] }
  | _ => c

/-- Writes one queue entry for the instruction at `pc`. -/
def Bench.enqueue (x : Bench) (i : EngInstr) (pc : BitVec 16) : Bench :=
  let e := x.core.entry i pc
  let x := { x with core := x.core.dispatched i e }
  if i.forge then { x with forge := { x.forge with queue := x.forge.queue ++ [e] } }
  else { x with lathe := { x.lathe with queue := x.lathe.queue ++ [e] } }

/-- A dispatch from its Decode state on: a queue entry, or the stall of R73. -/
def dispatchBody (b : BenchId) (i : EngInstr) (s : State) : Body :=
  if (s.bench b).queueShut i.forge then .stall (s.updCore b fun c => c.retype i) (.queue i)
  else .done (s.updBench b fun x => x.enqueue i x.core.pc) 3 false

/-- Dispatches one engine instruction. -/
def dispatch (b : BenchId) (i : EngInstr) (s : State) : State :=
  issue b (engForm (s.bench b).core i) (dispatchBody b i) s

/-- The conditions of pair dispatch (R71), checks in Decode of both included. -/
def State.pairOk (s : State) (b : BenchId) (i j : EngInstr) : Bool :=
  let x := s.bench b
  let c := x.core
  let held (a : BitVec 16) : Bool := c.lookahead.any fun e => e.addr = a && !e.bad
  let pend (k : EngInstr) : Bool := (engForm c k).regs.any fun r => r ≠ 0 ∧ c.pendingScalar.contains r
  let good (k : EngInstr) : Bool := !k.illegal c.vsew c.vgrp && !k.reserved && !pend k
  s.canIssue b && !s.plumb b && i.forge != j.forge && held c.pc && held (c.pc + 1)
    && !(c.loops.any fun l => l.le = c.pc) && (s.breakpoint b (c.pc + 1)).isNone
    && (c.bsk || (s.breakpoint b c.pc).isNone) && !c.stepping && !x.queueShut i.forge && !x.queueShut j.forge && good i
    && good j && (match i.dest with | some r => r = 0 || !j.reads.contains r | none => true)
    && c.flags.holds (i.word.extractLsb' 32 4) && c.flags.holds (j.word.extractLsb' 32 4)

/-- Dispatches two consecutive instructions together where R71 allows it, else the first alone. -/
def pairDispatch (b : BenchId) (i j : EngInstr) (s : State) : State :=
  if s.pairOk b i j then
    let pc := (s.bench b).core.pc
    let s' := s.updBench b fun x => (x.enqueue i pc).enqueue j (pc + 1)
    s.finish b { word := i.word, long := true } (.done s' 3 false)
  else dispatch b i s

/-- LATHE_DISPATCH. -/
def execLatheDispatch (b : BenchId) (i : EngInstr) (s : State) : Host.Outcome State Fault Refusal := act s (dispatch b i)

/-- PAIR_DISPATCH. -/
def execPairDispatch (b : BenchId) (i j : EngInstr) (s : State) : Host.Outcome State Fault Refusal :=
  act s (pairDispatch b i j)

/-- QUEUE_STALL_RELEASE: an entry has freed, and the stalled dispatch completes (R73). -/
def queueRelease (b : BenchId) (s : State) : State :=
  match (s.bench b).core.stall with
  | some (.queue i) =>
    if (s.bench b).queueShut i.forge || !s.canIssue b then s
    else s.finish b (engForm (s.bench b).core i) (dispatchBody b i s)
  | _ => s

/-- QUEUE_STALL_RELEASE. -/
def execQueueStallRelease (b : BenchId) (s : State) : Host.Outcome State Fault Refusal := act s (queueRelease b)

/-- SCALAR_RESULT_WRITE: an engine writes register `r`, which is pending no longer; a core that waits for it goes on (R72). -/
def Core.takeResult (c : Core) (r : R5) : Core :=
  match c.results.find? fun p => p.1 = r with
  | none => c
  | some p =>
    { (c.wr r p.2) with
      results := c.results.erase p
      pendingScalar := c.pendingScalar.erase r
      stall := if c.stall = some (.scalar r) then none else c.stall }

/-- SCALAR_RESULT_WRITE. -/
def execScalarResultWrite (b : BenchId) (r : R5) (s : State) : Host.Outcome State Fault Refusal :=
  act s fun s => if s.aclock b then s.updCore b fun c => c.takeResult r else s

/-! ## Deferred causes (03 R107) -/

/-- The engine that executes an instruction (05 R175). -/
def holderOf : EngInstr → Holder
  | .fop _ | .fgauge _ | .seed _ => .array
  | .pload _ | .tsync _ => .loader
  | .drain .. => .ladle
  | _ => .lathe

/-- The deferred cause that entry `e` raises. -/
def Entry.deferred (e : Entry) (c : Cause) : Deferred :=
  { holder := holderOf e.instr, cause := c, word := e.instr.word, epc := e.epc, level := e.level }

/-- A lathe instruction at the head of its queue raises: the queue freezes and the cause is pending. -/
def State.deferLathe (s : State) (b : BenchId) (e : Entry) (c : Cause) : State :=
  s.updBench b fun x =>
    { x with
      core := { x.core with deferLathe := some (e.deferred c) }
      lathe := { x.lathe with frozen := true, cause := c.code, wait := none } }

/-- A forge instruction raises: its queue freezes, and the cause is pending behind those that other executors have raised. -/
def State.deferForge (s : State) (b : BenchId) (e : Entry) (c : Cause) : State :=
  s.updBench b fun x =>
    { x with
      core := { x.core with deferForge := x.core.deferForge ++ [e.deferred c] }
      forge := { x.forge with frozen := true, cause := c.code } }

/-- The engine forms a scalar result; the write is SCALAR_RESULT_WRITE (R72). -/
def Core.form (c : Core) (r : R5) (v : W64) : Core := if r = 0 then c else { c with results := c.results ++ [(r, v)] }

end Sys2Proof.Machine
end

