-- ==== Sys2Proof/Machine/Float.lean ====
section
/-! DEFINITION. Floating-point formats and exact arithmetic (06 tables 6.1, 6.2; 04 R134-R139; 06 R201-R203; 07 R218-R221): a
finite value is an integer times a power of two, every operation is exact, and one rounding follows. -/

namespace Sys2Proof.Machine

/-! ## Formats (06 table 6.1) -/

/-- A format: exponent and fraction widths, and whether all-ones exponents are normal but for one NaN (FP8 E4M3). -/
structure FFmt where
  eb : Nat
  fb : Nat
  e4m3 : Bool := false
  deriving DecidableEq, Repr

def fp64 : FFmt := { eb := 11, fb := 52 }
def fp32 : FFmt := { eb := 8, fb := 23 }
def bf16 : FFmt := { eb := 8, fb := 7 }
def fp16 : FFmt := { eb := 5, fb := 10 }
def fp8E4m3 : FFmt := { eb := 4, fb := 3, e4m3 := true }
def fp8E5m2 : FFmt := { eb := 5, fb := 2 }

/-- Width in bits. -/
def FFmt.width (f : FFmt) : Nat := 1 + f.eb + f.fb

/-- Exponent bias. -/
def FFmt.bias (f : FFmt) : Nat := 2 ^ (f.eb - 1) - 1

/-- The sign bit's weight. -/
def FFmt.signBit (f : FFmt) : Nat := 2 ^ (f.eb + f.fb)

/-- Magnitude bits of the first code that is not finite: infinity, or the NaN of E4M3 (06 table 6.2). -/
def FFmt.top (f : FFmt) : Nat := if f.e4m3 then f.signBit - 1 else (2 ^ f.eb - 1) * 2 ^ f.fb

/-- The canonical NaN (04 R136, 07 R221). -/
def FFmt.nan (f : FFmt) : Nat := if f.e4m3 then f.signBit - 1 else f.top + 2 ^ (f.fb - 1)

/-- The least exponent of a normal value. -/
def FFmt.emin (f : FFmt) : Int := 1 - f.bias

/-! ## Values -/

/-- A value: NaN (signalling or not), infinity, or the finite (-1)^neg * m * 2^e. -/
inductive FV where
  | nan (sig : Bool)
  | inf (neg : Bool)
  | fin (neg : Bool) (m : Nat) (e : Int)
  deriving DecidableEq, Repr

/-- Puts a sign on magnitude bits. -/
def FFmt.signed (f : FFmt) (neg : Bool) (mag : Nat) : Nat := if neg then f.signBit + mag else mag

/-- The value that bits encode (06 R191). -/
def FFmt.decode (f : FFmt) (bits : Nat) : FV :=
  let neg := bits / f.signBit % 2 = 1
  let mag := bits % f.signBit
  let ex := mag / 2 ^ f.fb
  let fr := mag % 2 ^ f.fb
  if f.top ≤ mag then
    if f.e4m3 then .nan false
    else if mag = f.top then .inf neg
    else .nan (fr / 2 ^ (f.fb - 1) = 0)
  else if ex = 0 then .fin neg fr (f.emin - f.fb)
  else .fin neg (2 ^ f.fb + fr) (f.emin - f.fb + (ex - 1 : Nat))

/-- The value is negative (for a zero or an infinity, its sign). -/
def FV.neg? : FV → Bool
  | .nan _ => false
  | .inf n => n
  | .fin n _ _ => n

/-- The value with its sign turned. -/
def FV.negate : FV → FV
  | .nan s => .nan s
  | .inf n => .inf (!n)
  | .fin n m e => .fin (!n) m e

/-- The value is a zero. -/
def FV.isZero : FV → Bool
  | .fin _ 0 _ => true
  | _ => false

/-- The value is a NaN. -/
def FV.isNan : FV → Bool
  | .nan _ => true
  | _ => false

/-! ## Rounding -/

/-- Rounding directions: 04 FRM 0-3, and stochastic rounding with its 13 bits (06 R203). -/
inductive Rnd where
  | near | zero | down | up
  | stoch (r : Nat)
  deriving DecidableEq, Repr

/-- FFLAGS bits (04 CSR 0x07). -/
def fNV : BitVec 5 := 16
def fDZ : BitVec 5 := 8
def fOF : BitVec 5 := 4
def fUF : BitVec 5 := 2
def fNX : BitVec 5 := 1

/-- Whether the magnitude q + rem / den of sign `neg` rounds away from zero. -/
def Rnd.inc (rm : Rnd) (neg : Bool) (q rem den : Nat) : Bool :=
  match rm with
  | .near => decide (den < 2 * rem) || (decide (2 * rem = den) && q % 2 == 1)
  | .zero => false
  | .down => neg && rem != 0
  | .up => !neg && rem != 0
  | .stoch r => decide (8192 * den ≤ 8192 * rem + r * den)

/-- `m * 2^-d` rounded to an integer, and whether it was inexact. -/
def roundShift (rm : Rnd) (neg : Bool) (m : Nat) (d : Int) : Nat × Bool :=
  if d ≤ 0 then (m * 2 ^ d.natAbs, false)
  else
    let den := 2 ^ d.natAbs
    let q := m / den
    let rem := m % den
    ((if rm.inc neg q rem den then q + 1 else q), rem != 0)

/-- A rounded magnitude: its code, computed as if the exponent were unbounded above, and whether it is past the largest finite
code, inexact, and tiny after rounding. -/
structure Rounded where
  mag : Nat
  above : Bool
  inexact : Bool
  tiny : Bool
  deriving DecidableEq, Repr

/-- The exponent of the leading bit of `m * 2^e`, m > 0. -/
def leadExp (m : Nat) (e : Int) : Int := e + Nat.log2 m

/-- Rounds `m * 2^e` once into format `f`. Subnormal results are kept in full. -/
def FFmt.roundMag (f : FFmt) (rm : Rnd) (neg : Bool) (m : Nat) (e : Int) : Rounded :=
  if m = 0 then ⟨0, false, false, false⟩
  else
    let le := leadExp m e
    let ex := max le f.emin
    let r := roundShift rm neg m (ex - f.fb - e)
    let mag := (ex - f.emin).toNat * 2 ^ f.fb + r.1
    let tiny :=
      decide (le < f.emin - 1) ||
        (decide (le = f.emin - 1) && decide ((roundShift rm neg m (le - f.fb - e)).1 < 2 ^ (f.fb + 1)))
    ⟨mag, decide (f.top ≤ mag), r.2, tiny⟩

/-- The magnitude that an overflow gives under IEEE 754 for the direction (04 R134, 06 R202); `sat` gives the largest finite. -/
def FFmt.overflow (f : FFmt) (rm : Rnd) (neg sat : Bool) : Nat :=
  let inf :=
    match rm with
    | .near | .stoch _ => true
    | .zero => false
    | .down => neg
    | .up => !neg
  if sat || !inf then f.top - 1 else f.top

/-- Encodes a value under IEEE 754 rules with one rounding, and the flags (04 R134-R137). -/
def FFmt.round (f : FFmt) (rm : Rnd) : FV → Nat × BitVec 5
  | .nan s => (f.nan, if s then fNV else 0)
  | .inf n => (f.signed n f.top, 0)
  | .fin n m e =>
    let r := f.roundMag rm n m e
    if r.above then (f.signed n (f.overflow rm n false), fOF ||| fNX)
    else (f.signed n r.mag, if r.inexact then (if r.tiny then fUF ||| fNX else fNX) else 0)

/-! ## Exact operations. The flags are those that the operation signals before rounding. -/

/-- The signed integer of a finite value at exponent `e0 ≤ e`. -/
def scaled (neg : Bool) (m : Nat) (e e0 : Int) : Int :=
  let v : Int := m * 2 ^ (e - e0).natAbs
  if neg then -v else v

/-- A signalling NaN operand signals Invalid (04 R136). -/
def FV.sig : FV → BitVec 5
  | .nan true => fNV
  | _ => 0

/-- The exact sum. An exact zero sum takes its sign from IEEE 754 under the rounding direction. -/
def FV.add (rm : Rnd) (x y : FV) : FV × BitVec 5 :=
  let fl := x.sig ||| y.sig
  match x, y with
  | .nan _, _ | _, .nan _ => (.nan false, fl)
  | .inf a, .inf b => if a = b then (.inf a, 0) else (.nan false, fNV)
  | .inf a, .fin .. => (.inf a, 0)
  | .fin .., .inf b => (.inf b, 0)
  | .fin a m e, .fin b n g =>
    let e0 := min e g
    let v := scaled a m e e0 + scaled b n g e0
    if v = 0 then (.fin (if m = 0 ∧ n = 0 ∧ a = b then a else rm = .down) 0 e0, 0)
    else (.fin (v < 0) v.natAbs e0, 0)

/-- The exact product. -/
def FV.mul (x y : FV) : FV × BitVec 5 :=
  let fl := x.sig ||| y.sig
  match x, y with
  | .nan _, _ | _, .nan _ => (.nan false, fl)
  | .inf a, .inf b => (.inf (a != b), 0)
  | .inf a, .fin b n _ => if n = 0 then (.nan false, fNV) else (.inf (a != b), 0)
  | .fin a m _, .inf b => if m = 0 then (.nan false, fNV) else (.inf (a != b), 0)
  | .fin a m e, .fin b n g => (.fin (a != b) (m * n) (e + g), 0)

/-- x * y + d exactly; 0 * infinity + NaN signals Invalid (04 R136). -/
def FV.fma (rm : Rnd) (x y d : FV) : FV × BitVec 5 :=
  let p := x.mul y
  let s := p.1.add rm d
  (s.1, p.2 ||| s.2)

/-- The quotient with enough bits, and a last bit for the rest, to round into `fb` fraction bits. -/
def FV.div (fb : Nat) (x y : FV) : FV × BitVec 5 :=
  let fl := x.sig ||| y.sig
  match x, y with
  | .nan _, _ | _, .nan _ => (.nan false, fl)
  | .inf _, .inf _ => (.nan false, fNV)
  | .inf a, .fin b _ _ => (.inf (a != b), 0)
  | .fin a _ _, .inf b => (.fin (a != b) 0 0, 0)
  | .fin a m e, .fin b n g =>
    if n = 0 then (if m = 0 then (.nan false, fNV) else (.inf (a != b), fDZ))
    else
      let k := fb + 3 + Nat.log2 n
      let q := m * 2 ^ k / n
      let r := m * 2 ^ k % n
      (.fin (a != b) (2 * q + (if r = 0 then 0 else 1)) (e - g - k - 1), 0)

/-- The integer square root of `n`, built from bit `k` down. -/
def isqrtFrom (n : Nat) : Nat → Nat → Nat
  | 0, r => if (r + 1) * (r + 1) ≤ n then r + 1 else r
  | k + 1, r =>
    let t := r + 2 ^ (k + 1)
    isqrtFrom n k (if t * t ≤ n then t else r)

/-- The integer square root. -/
def isqrt (n : Nat) : Nat := isqrtFrom n (Nat.log2 n / 2 + 1) 0

/-- The square root with enough bits to round into `fb` fraction bits. -/
def FV.sqrt (fb : Nat) (x : FV) : FV × BitVec 5 :=
  match x with
  | .nan s => (.nan false, if s then fNV else 0)
  | .inf n => if n then (.nan false, fNV) else (.inf false, 0)
  | .fin n m e =>
    if m = 0 then (.fin n 0 0, 0)
    else if n then (.nan false, fNV)
    else
      let k := 2 * (fb + 3) + (if (e - (2 * (fb + 3) : Nat)) % 2 = 0 then 0 else 1)
      let v := m * 2 ^ k
      let r := isqrt v
      (.fin false (2 * r + (if r * r = v then 0 else 1)) ((e - k) / 2 - 1), 0)

/-- Order of two values that are not NaN: negative below, 0 equal, positive above; -0 equals +0. -/
def FV.cmp (x y : FV) : Int :=
  match x, y with
  | .inf a, .inf b => if a = b then 0 else if a then -1 else 1
  | .inf a, _ => if a then -1 else 1
  | _, .inf b => if b then 1 else -1
  | .fin a m e, .fin b n g =>
    let e0 := min e g
    scaled a m e e0 - scaled b n g e0
  | _, _ => 0

/-- x is below y, with -0 below +0 (04 R138). -/
def FV.below (x y : FV) : Bool :=
  let c := x.cmp y
  decide (c < 0) || (decide (c = 0) && x.neg? && !y.neg?)

/-- The smaller (`less`) or the larger of two operands' bits: IEEE 754-2019 minimum and maximum, or with `num` minimumNumber and
maximumNumber (04 R138). -/
def FFmt.extremum (f : FFmt) (less num : Bool) (x y : Nat) : Nat × BitVec 5 :=
  let a := f.decode x
  let b := f.decode y
  let fl := a.sig ||| b.sig
  if a.isNan || b.isNan then
    if num && !a.isNan then (x, fl) else if num && !b.isNan then (y, fl) else (f.nan, fl)
  else ((if a.below b = less then x else if b.below a = less then y else x), fl)

/-- Rounds a value to an integer of `w` bits: saturation and NaN signal Invalid, an inexact result Inexact (04 R139). -/
def FV.toInteger (rm : Rnd) (w : Nat) (sgn : Bool) (x : FV) : Int × BitVec 5 :=
  let hi : Int := if sgn then 2 ^ (w - 1) - 1 else 2 ^ w - 1
  let lo : Int := if sgn then -(2 ^ (w - 1)) else 0
  match x with
  | .nan _ => (0, fNV)
  | .inf n => ((if n then lo else hi), fNV)
  | .fin n m e =>
    let r := roundShift rm n m (-e)
    let v : Int := if n then -(r.1 : Int) else r.1
    if hi < v then (hi, fNV) else if v < lo then (lo, fNV) else (v, if r.2 then fNX else 0)

/-- The value of an integer. -/
def FV.ofInt (v : Int) : FV := .fin (v < 0) v.natAbs 0

/-! ## Integers as bit patterns -/

/-- The signed value of the low `w` bits. -/
def toS (w : Nat) (x : Nat) : Int := if x % 2 ^ w < 2 ^ (w - 1) then (x % 2 ^ w : Nat) else (x % 2 ^ w : Nat) - (2 ^ w : Nat)

/-- The low `w` bits of an integer. -/
def ofS (w : Nat) (v : Int) : Nat := (v % (2 ^ w : Nat)).toNat

end Sys2Proof.Machine
end

