-- ==== Sys2Proof/Machine/ForgeArith.lean ====
section
/-! DEFINITION. The arithmetic of one forge cell (06): operands, anchors, near sums, taint, gauges, promotion, and the riddle
generators. -/

namespace Sys2Proof.Machine

/-! ## The fields of an array operation -/

/-- The fields of an FOP or FGAUGE. RND and CLAMP are 0 in FGAUGE (05 R183). -/
structure ArrCtl where
  t : Nat
  fmt : BitVec 4
  ovw : Bool
  wide : Bool
  rnd : Nat := 0
  clamp : Bool := false
  gop : Option Nat := none
  deriving DecidableEq, Repr

end Sys2Proof.Machine

namespace Sys2Proof

open Sys2Proof.Machine

/-- The fields of an array operation's instruction; the first format of the table for any other instruction. -/
def EngInstr.ctl : EngInstr → ArrCtl
  | .fop f => { t := f.t.toNat, fmt := f.fmt, ovw := f.ovw == 1, wide := f.wide == 1, rnd := f.rnd.toNat, clamp := f.clamp == 1 }
  | .fgauge f => { t := f.t.toNat, fmt := f.fmt, ovw := f.ovw == 1, wide := f.wide == 1, gop := some f.gop.toNat }
  | _ => { t := 0, fmt := 0, ovw := false, wide := false }

end Sys2Proof

namespace Sys2Proof.Machine

/-- Steps per A-cycle S (05 table 5.4). -/
def stepsPer (fmt : BitVec 4) : Nat :=
  match fmt.toNat with
  | 5 | 6 | 7 => 2
  | 8 => 4
  | 9 => 8
  | _ => 1

/-- Sweeps (05 table 5.4). -/
def sweepsOf (fmt : BitVec 4) : Nat :=
  match fmt.toNat with
  | 3 => 3
  | 4 => 4
  | _ => 1

/-- Tile elements are INT32: FMT 7, 8 and 9 (05 table 5.3). -/
def isInt (fmt : BitVec 4) : Bool := decide (7 ≤ fmt.toNat)

/-- Heat length H (06 table 6.4). -/
def heatLen (g : ArrCtl) : Nat :=
  match g.gop, g.fmt.toNat with
  | some 5, _ => 64
  | some 1, 7 => 8
  | _, 5 | _, 6 => 8
  | _, 7 | _, 8 => 16
  | _, _ => 4

/-- Heats of one sweep. -/
def heatsPer (g : ArrCtl) (k : Nat) : Nat := (k + heatLen g - 1) / heatLen g

/-- The element before the first promotion of an operation with OVW = 1 (05 table 5.7). -/
def identity (g : ArrCtl) : W32 :=
  match g.gop with
  | some 2 => if isInt g.fmt then 0x7FFFFFFF#32 else 0x7F800000#32
  | some 3 => if isInt g.fmt then 0x80000000#32 else 0xFF800000#32
  | _ => 0

/-! ## Operands (06 R191-R193, R199) -/

/-- Fraction bits f (06 table 6.3). -/
def opF (fmt : BitVec 4) : Nat :=
  match fmt.toNat with
  | 0 => 7
  | 1 => 10
  | 2 | 3 | 4 => 11
  | 5 => 3
  | 6 => 2
  | _ => 0

/-- Near-sum fraction bits F (06 table 6.4). -/
def nearF (fmt : BitVec 4) : Nat :=
  match fmt.toNat with
  | 5 | 6 => 14
  | 7 | 8 | 9 => 0
  | _ => 15

/-- The limbs (true: high) of the column and row operands in a sweep (06 table 6.6). -/
def sweepLimbs (fmt : BitVec 4) (sweep : Nat) : Bool × Bool :=
  match fmt.toNat, sweep with
  | 3, 0 => (true, false)
  | 3, 1 => (false, true)
  | 4, 0 => (false, false)
  | 4, 1 => (true, false)
  | 4, 2 => (false, true)
  | _, _ => (true, true)

/-- The value of an operand. -/
def opValue (fmt : BitVec 4) (raw : Nat) : FV :=
  match fmt.toNat with
  | 0 => bf16.decode raw
  | 1 => fp16.decode raw
  | 2 | 3 | 4 => fp32.decode raw
  | 5 => fp8E4m3.decode raw
  | 6 => fp8E5m2.decode raw
  | 7 => FV.ofInt (toS 8 raw)
  | 8 => FV.ofInt (toS 4 raw)
  | _ => FV.ofInt raw

/-- The triple (s, e, M) of a finite operand; in the FP32 modes, that of its high or low limb (06 R193, R199). -/
def triple (fmt : BitVec 4) (high : Bool) : FV → Option (Bool × Int × Nat)
  | .fin n m e =>
    if 2 ≤ fmt.toNat ∧ fmt.toNat ≤ 4 then some (if high then (n, e + 23, m / 4096) else (n, e + 11, m % 4096))
    else some (n, e + opF fmt, m)
  | _ => none

/-- The exponent e of an operand; emin for an infinity or a NaN (06 R193, table 6.3). -/
def opExp (fmt : BitVec 4) (high : Bool) (v : FV) : Int :=
  match triple fmt high v with
  | some (_, e, _) => e
  | none =>
    match fmt.toNat with
    | 1 | 6 => -14
    | 5 => -6
    | 7 | 8 | 9 => 0
    | _ => if high then -126 else -138

/-- The largest exponent of a heat's operands (06 R195). -/
def maxExp (fmt : BitVec 4) (high : Bool) : List FV → Int
  | [] => 0
  | [v] => opExp fmt high v
  | v :: r => max (opExp fmt high v) (maxExp fmt high r)

/-! ## Taint (06 R207) -/

/-- The taint class of a cell. -/
inductive Taint where
  | none | pos | neg | nan
  deriving DecidableEq, Repr

/-- Merging of classes. -/
def Taint.merge : Taint → Taint → Taint
  | .none, t => t
  | t, .none => t
  | .pos, .pos => .pos
  | .neg, .neg => .neg
  | _, _ => .nan

/-- An infinity's class by its sign. -/
def Taint.inf (neg : Bool) : Taint := if neg then .neg else .pos

/-- Classification of a step's operand pair (06 table 6.7). -/
def pclass (a b : FV) : Taint :=
  match a, b with
  | .nan _, _ | _, .nan _ => .nan
  | .inf m, .inf n => .inf (m != n)
  | .inf m, .fin n k _ => if k = 0 then .nan else .inf (m != n)
  | .fin m k _, .inf n => if k = 0 then .nan else .inf (m != n)
  | .fin .., .fin .. => .none

/-! ## Heats (06 R194-R196, R209) -/

/-- `mag * 2^sh`, truncated toward zero. -/
def align (mag : Nat) (sh : Int) : Nat := if 0 ≤ sh then mag * 2 ^ sh.natAbs else mag / 2 ^ sh.natAbs

/-- What a heat of one cell leaves: a near sum and the exponent of its unit, or an extremum. -/
structure HeatOut where
  n : Int := 0
  w : Int := 0
  taint : Taint := .none
  ext : Option FV := none
  deriving DecidableEq, Repr

/-- One product of an FOP heat with anchor `en`. -/
def fopStep (fmt : BitVec 4) (lc lr : Bool) (en : Int) (h : HeatOut) (p : FV × FV) : HeatOut :=
  match triple fmt lc p.1, triple fmt lr p.2 with
  | some (sa, ea, ma), some (sb, eb, mb) =>
    let m : Int := align (ma * mb) (ea + eb - en + nearF fmt - 2 * opF fmt)
    { h with n := h.n + (if sa ≠ sb then -m else m) }
  | _, _ => { h with taint := h.taint.merge (pclass p.1 p.2) }

/-- A heat of an FOP (06 R196). -/
def fopHeat (fmt : BitVec 4) (sweep : Nat) (ps : List (FV × FV)) : HeatOut :=
  let l := sweepLimbs fmt sweep
  let en := if isInt fmt then 0 else maxExp fmt l.1 (ps.map (·.1)) + maxExp fmt l.2 (ps.map (·.2))
  ps.foldl (fopStep fmt l.1 l.2 en) { w := en - nearF fmt }

/-- |a - b| of two finite values, as an integer times a power of two. -/
def absDiff (m n : Bool) (k j : Nat) (e f : Int) : Nat × Int := ((scaled m k e (min e f) - scaled n j f (min e f)).natAbs, min e f)

/-- One term of L1 or L2 with anchor `en` (06 R209). -/
def distStep (fmt : BitVec 4) (sq : Bool) (en : Int) (h : HeatOut) (p : FV × FV) : HeatOut :=
  match p.1, p.2 with
  | .nan _, _ | _, .nan _ => { h with taint := h.taint.merge .nan }
  | .inf m, .inf n => { h with taint := h.taint.merge (if m = n then .nan else .pos) }
  | .inf _, _ | _, .inf _ => { h with taint := h.taint.merge .pos }
  | .fin m k e, .fin n j f =>
    let d := absDiff m n k j e f
    let t := if sq then align (d.1 * d.1) (2 * d.2 + nearF fmt - 2 * en) else align d.1 (d.2 + nearF fmt - en)
    { h with n := h.n + t }

/-- A heat of L1 or L2. -/
def distHeat (fmt : BitVec 4) (sq : Bool) (ps : List (FV × FV)) : HeatOut :=
  let en := if isInt fmt then 0 else max (maxExp fmt true (ps.map (·.1))) (maxExp fmt true (ps.map (·.2))) + 1
  ps.foldl (distStep fmt sq en) { w := (if sq then 2 * en else en) - nearF fmt }

/-- One step of min-plus (`less`) or max-plus. -/
def extStep (less : Bool) (h : HeatOut) (p : FV × FV) : HeatOut :=
  match (p.1.add .near p.2).1 with
  | .nan _ => { h with taint := .nan }
  | v =>
    match h.ext with
    | none => { h with ext := some v }
    | some x => if (if less then v.cmp x < 0 else x.cmp v < 0) then { h with ext := some v } else h

/-- The operands are equal as values (05 R184). -/
def equalValues (a b : FV) : Bool :=
  match a, b with
  | .nan _, _ | _, .nan _ => false
  | a, b => a.cmp b == 0

/-- A heat of cell (i, j): `ps` are the operand pairs of its steps. -/
def cellHeat (g : ArrCtl) (sweep : Nat) (ps : List (FV × FV)) : HeatOut :=
  match g.gop with
  | none => fopHeat g.fmt sweep ps
  | some 0 => distHeat g.fmt false ps
  | some 1 => distHeat g.fmt true ps
  | some 2 => ps.foldl (extStep true) {}
  | some 3 => ps.foldl (extStep false) {}
  | some 4 => { n := ps.countP fun p => equalValues p.1 p.2 }
  | _ => { n := ps.countP fun p => !equalValues p.1 p.2 }

/-! ## Promotion (06 R201-R203, R207-R209) -/

/-- The canonical NaN of a tile element. -/
def tileNan : W32 := 0x7FC00000#32

/-- Resolution of a taint against the tile element (06 table 6.9). -/
def resolveTaint (taint : Taint) (t : W32) : W32 :=
  match taint, fp32.decode t.toNat with
  | .nan, _ | _, .nan _ => tileNan
  | .pos, .inf true | .neg, .inf false => tileNan
  | .pos, _ => 0x7F800000#32
  | .neg, _ => 0xFF800000#32
  | .none, _ => t

/-- The exact real x rounded once to FP32 (06 R202, R203). An exact zero gives +0. -/
def promoteReal (rm : Rnd) (clamp : Bool) (x : FV) : W32 :=
  match x with
  | .fin _ 0 _ => 0
  | .fin n m e =>
    let r := fp32.roundMag rm n m e
    BitVec.ofNat 32 (fp32.signed n (if r.above then fp32.overflow rm n clamp else r.mag))
  | .inf n => BitVec.ofNat 32 (fp32.signed n fp32.top)
  | .nan _ => tileNan

/-- Promotion of a near sum into an FP32 element (06 R201). -/
def promoteFloat (rm : Rnd) (clamp : Bool) (h : HeatOut) (t : W32) : W32 :=
  if h.taint ≠ .none then resolveTaint h.taint t
  else if h.n = 0 then t
  else
    match fp32.decode t.toNat with
    | .fin n m e => promoteReal rm clamp ((FV.fin n m e).add .near (.fin (h.n < 0) h.n.natAbs h.w)).1
    | _ => t

/-- Promotion of a count or an integer sum into an INT32 element (06 R208). -/
def promoteInt (clamp : Bool) (n : Int) (t : W32) : W32 :=
  let v := t.toInt + n
  BitVec.ofInt 32 (if clamp then max (-(2 ^ 31)) (min (2 ^ 31 - 1) v) else v)

/-- Promotion of an extremum (06 R209). Of equal values the element keeps its own. -/
def promoteExt (int less : Bool) (h : HeatOut) (t : W32) : W32 :=
  match h.ext with
  | none => if h.taint = .none then t else resolveTaint h.taint t
  | some x =>
    if int then
      match x with
      | .fin n m e => let v := scaled n m e 0; BitVec.ofInt 32 (if less then min t.toInt v else max t.toInt v)
      | _ => t
    else if h.taint ≠ .none then resolveTaint h.taint t
    else
      let r := promoteReal .near false x
      match fp32.decode t.toNat with
      | .nan _ => t
      | y =>
        let c := (fp32.decode r.toNat).cmp y
        if (if less then c < 0 else 0 < c) then r else t

/-- One promotion into element `t`, which OVW has reset already when it is the first; `r` are the riddle's 13 bits. -/
def promote (g : ArrCtl) (r : Nat) (h : HeatOut) (t : W32) : W32 :=
  match g.gop with
  | some 2 => promoteExt (isInt g.fmt) true h t
  | some 3 => promoteExt (isInt g.fmt) false h t
  | some 4 | some 5 => promoteInt false h.n t
  | _ =>
    if isInt g.fmt then promoteInt g.clamp h.n t
    else promoteFloat (if g.rnd = 0 then .near else if g.rnd = 1 then .zero else .stoch r) g.clamp h t

/-! ## The riddle (06 R204, R205) -/

/-- One step of a lane: the xorshift of the example under 00 R17. -/
def riddleStep (s : W32) : W32 :=
  let s := s ^^^ s <<< 13
  let s := s ^^^ s >>> 17
  s ^^^ s <<< 5

/-- `n` steps of a lane. -/
def riddleSteps : Nat → W32 → W32
  | 0, s => s
  | n + 1, s => riddleSteps n (riddleStep s)

/-- The state that SEED with value `s` gives lane `j`. -/
def riddleSeed (s : W32) (j : Nat) : W32 :=
  let v := s ^^^ (0x9E3779B9#32 * BitVec.ofNat 32 (j + 1))
  if v = 0 then 1 else v

/-- Bits [31:19] of a lane's state. -/
def riddleBits (s : W32) : Nat := s.toNat / 2 ^ 19

/-- The state of forge lane `j`. -/
def Forge.lane (x : Forge) (j : Nat) : W32 := x.lanes.getD j (riddleSeed 0 j)

/-- All lanes after a promotion under RND = 2: 64 steps each. -/
def Forge.stepLanes (x : Forge) : Forge := { x with lanes := (List.range 128).map fun j => riddleSteps 64 (x.lane j) }

end Sys2Proof.Machine
end

