-- ==== Sys2Proof/Machine/Lathe.lean ====
section
/-! DEFINITION. The lathe (04): elements, masks, integer, fixed-point and floating-point operations, reductions, moves,
conversions, tiles, memory accesses, and how its head instruction runs, stops and resumes. -/

namespace Sys2Proof.Machine

/-! ## Elements and masks (04 R115-R117, R126) -/

/-- The byte of vector storage at which element `i` of width `w` of the group at register `r` begins. -/
def elemAt (r i w : Nat) : Nat := r * vlenb + i * w / 8

/-- Element `i` of width `w` of the group that starts at register `r`. -/
def Lathe.elem (l : Lathe) (r : R5) (i w : Nat) : Nat := l.v.leNat id (elemAt r.toNat i w) (w / 8)

/-- Writes an element. -/
def Lathe.setElem (l : Lathe) (r : R5) (i w x : Nat) : Lathe :=
  { l with v := l.v.setLe id (elemAt r.toNat i w) (w / 8) x }

/-- Bit `i` of mask register `k`. -/
def Lathe.maskBit (l : Lathe) (k i : Nat) : Bool := Sp.get (fun _ => false) l.m (k * 32768 + i)

/-- Writes a mask bit. -/
def Lathe.setMask (l : Lathe) (k i : Nat) (v : Bool) : Lathe :=
  { l with m := Sp.set (fun _ => false) l.m (k * 32768 + i) v }

/-- Element `i` is active under MS. -/
def Lathe.active (l : Lathe) (ms : BitVec 3) (i : Nat) : Bool := ms = 0 || l.maskBit ms.toNat i

/-! ## Fixed-point steps (04 R132) -/

/-- rshr under FXRND. -/
def rshr (mode : BitVec 2) (v : Int) (d : Nat) : Int :=
  if d = 0 then v
  else
    let q := v / 2 ^ d
    let rem := v - q * 2 ^ d
    let half : Int := 2 ^ (d - 1)
    let inc : Bool :=
      match mode.toNat with
      | 0 => decide (half ≤ rem)
      | 1 => decide (half < rem) || (decide (rem = half) && decide (q % 2 = 1))
      | 2 => false
      | _ => decide (rem ≠ 0) && decide (q % 2 = 0)
    if inc then q + 1 else q

/-- A result of an element operation: the bits, whether it saturated, and the floating-point flags. -/
structure ElemOut where
  val : Nat
  sat : Bool := false
  fl : BitVec 5 := 0
  deriving DecidableEq, Repr

/-- Clamps to [lo, hi]; a clamp is a saturation. -/
def clampTo (w : Nat) (lo hi v : Int) : ElemOut :=
  if hi < v then { val := ofS w hi, sat := true } else if v < lo then { val := ofS w lo, sat := true } else { val := ofS w v }

/-- sats. -/
def sats (w : Nat) (v : Int) : ElemOut := clampTo w (-(2 ^ (w - 1))) (2 ^ (w - 1) - 1) v

/-- satu. -/
def satu (w : Nat) (v : Int) : ElemOut := clampTo w 0 (2 ^ w - 1) v

/-! ## Element operations (04 R128, R133-R138) -/

/-- Format of a floating-point element (04 R134). -/
def elemFmt (w : Nat) (fpk : Bool) : FFmt := if w = 64 then fp64 else if w = 32 then fp32 else if fpk then bf16 else fp16

/-- FRM as a rounding direction. -/
def frmRnd (m : BitVec 2) : Rnd :=
  match m.toNat with
  | 0 => .near
  | 1 => .zero
  | 2 => .down
  | _ => .up

/-- Rounds an exact result, with the flags that the operation signalled. -/
def fpDone (f : FFmt) (rm : Rnd) (r : FV × BitVec 5) : ElemOut :=
  let o := f.round rm r.1
  { val := o.1, fl := o.2 ||| r.2 }

/-- An extremum as an element result. -/
def extDone (f : FFmt) (less num : Bool) (a b : Nat) : ElemOut :=
  let o := f.extremum less num a b
  { val := o.1, fl := o.2 }

/-- The control values that element operations use. -/
structure VCtl where
  w : Nat
  fpk : Bool
  fxrnd : BitVec 2
  frm : BitVec 2
  deriving DecidableEq, Repr

/-- The result of an arithmetic operation of 0x50-0x5A on elements a and b, with old destination d. -/
def vvElem (op : VvOp) (k : VCtl) (a b d : Nat) : ElemOut :=
  let w := k.w
  let f := elemFmt w k.fpk
  let rm := frmRnd k.frm
  let x := f.decode a
  let y := f.decode b
  let z := f.decode d
  let sa := toS w a
  let sb := toS w b
  match op with
  | .vadd => { val := (a + b) % 2 ^ w }
  | .vsub => { val := ofS w (a - b : Int) }
  | .vrsub => { val := ofS w (b - a : Int) }
  | .vand => { val := a &&& b }
  | .vor => { val := a ||| b }
  | .vxor => { val := a ^^^ b }
  | .vsll => { val := a * 2 ^ (b % w) % 2 ^ w }
  | .vsrl => { val := a / 2 ^ (b % w) }
  | .vsra => { val := ofS w (sa / 2 ^ (b % w)) }
  | .vmin => { val := if sa ≤ sb then a else b }
  | .vmax => { val := if sb ≤ sa then a else b }
  | .vminu => { val := min a b }
  | .vmaxu => { val := max a b }
  | .vmul => { val := a * b % 2 ^ w }
  | .vmulh => { val := ofS w (sa * sb / 2 ^ w) }
  | .vmulhu => { val := a * b / 2 ^ w }
  | .vaddsat => sats w (sa + sb)
  | .vaddsatu => satu w (a + b : Nat)
  | .vsubsat => sats w (sa - sb)
  | .vsubsatu => satu w (a - b : Int)
  | .vavg => { val := ofS w (rshr k.fxrnd (sa + sb) 1) }
  | .vavgu => { val := ofS w (rshr k.fxrnd (a + b : Nat) 1) }
  | .vfrmul => sats w (rshr k.fxrnd (sa * sb) (w - 1))
  | .vshrr => { val := ofS w (rshr k.fxrnd a (b % w)) }
  | .vshrra => { val := ofS w (rshr k.fxrnd sa (b % w)) }
  | .vclipnu => satu w (rshr k.fxrnd a (b % (2 * w)))
  | .vclipn => sats w (rshr k.fxrnd (toS (2 * w) a) (b % (2 * w)))
  | .vfadd => fpDone f rm (x.add rm y)
  | .vfsub => fpDone f rm (x.add rm y.negate)
  | .vfmul => fpDone f rm (x.mul y)
  | .vfdiv => fpDone f rm (x.div f.fb y)
  | .vfsqrt => fpDone f rm (x.sqrt f.fb)
  | .vfminnum => extDone f true true a b
  | .vfmaxnum => extDone f false true a b
  | .vfmin => extDone f true false a b
  | .vfmax => extDone f false false a b
  | .vfabs => { val := a % f.signBit }
  | .vfneg => { val := a ^^^ f.signBit }
  | .vfma => fpDone f rm (x.fma rm y z)
  | .vfms => fpDone f rm (x.fma rm y z.negate)
  | .vfnma => fpDone f rm (x.negate.fma rm y z)
  | .vfnms => fpDone f rm (x.negate.fma rm y z.negate)
  | .vmv => { val := b }
  | _ => { val := d }

/-- The bit that a compare of 0x5C or 0x5D writes, and its flags (04 table 4.5, R138). -/
def vcElem (op : VvOp) (k : VCtl) (a b : Nat) : Bool × BitVec 5 :=
  let f := elemFmt k.w k.fpk
  let x := f.decode a
  let y := f.decode b
  let nan := x.isNan || y.isNan
  match op with
  | .vceq => (a == b, 0)
  | .vcne => (a != b, 0)
  | .vclt => (decide (toS k.w a < toS k.w b), 0)
  | .vcge => (decide (toS k.w b ≤ toS k.w a), 0)
  | .vcltu => (decide (a < b), 0)
  | .vcgeu => (decide (b ≤ a), 0)
  | .vfceq => (!nan && decide (x.cmp y = 0), x.sig ||| y.sig)
  | .vfclt => (!nan && decide (x.cmp y < 0), if nan then fNV else 0)
  | .vfcle => (!nan && decide (x.cmp y ≤ 0), if nan then fNV else 0)
  | .vfcun => (nan, x.sig ||| y.sig)
  | _ => (false, 0)

/-! ## How an engine instruction ends -/

/-- How a run of the lathe's head instruction ends: it completes; it stops before element `k` (04 R149); it waits there; or it raises
there. -/
inductive LatheEnd where
  | done (l : Lathe)
  | stop (l : Lathe) (k : Nat)
  | wait (l : Lathe) (k : Nat) (w : EngWait)
  | raise (l : Lathe) (k : Nat) (c : Cause)
  deriving DecidableEq, Repr

/-- Elements of one group of the datapath (04 R147). -/
def groupElems (w : Nat) : Nat := 8192 / w

/-- The first element group from `g` on, of `n`, in which `mism` names two mismatches (04 R147). -/
def badGroup (mism : List Nat) : Nat → Nat → Option Nat
  | _, 0 => none
  | g, n + 1 => if 2 ≤ mism.count g then some g else badGroup mism (g + 1) n

/-- Element groups of VL elements of width `w`; a VL of 0 has none, so that nothing raises (04 R118). -/
def groupCount (vl w : Nat) : Nat := (vl + groupElems w - 1) / groupElems w

/-- Runs `f` on elements lo to lo + n - 1. -/
def eachElem (f : Nat → Lathe → Lathe) : Nat → Nat → Lathe → Lathe
  | _, 0, l => l
  | lo, n + 1, l => eachElem f (lo + 1) n (f lo l)

/-- Runs an elementwise instruction from VPI: all groups, or those that `p` lets it come to, or those below one that fails its residue check
twice, at which it raises Arithmetic check with subcause `sub` (04 R147, R149, 07 R235). -/
def elementwise (l : Lathe) (w : Nat) (p : Pace) (sub : Byte) (f : Nat → Lathe → Lathe) : LatheEnd :=
  let g0 := l.vpi / groupElems w
  let n := groupCount l.vl w - g0
  let m := min (p.stop.getD n) n
  let upTo (k : Nat) : Lathe := eachElem f l.vpi (min k l.vl - l.vpi) l
  match badGroup p.mism g0 m with
  | some g =>
    let k := g * groupElems w
    .raise (upTo k) k { code := causeArith, sub, info := BitVec.ofNat 32 k }
  | none => if m < n then .stop (upTo ((g0 + m) * groupElems w)) ((g0 + m) * groupElems w) else .done (upTo l.vl)

/-- Runs an instruction that writes only when it completes (04 R147): one that is stopped begins anew. -/
def whole (l : Lathe) (w : Nat) (p : Pace) (r : Lathe) : LatheEnd :=
  if p.stop.any fun m => m < groupCount l.vl w then .stop l 0
  else
    match badGroup p.mism 0 (groupCount l.vl w) with
    | none => .done r
    | some _ => .raise l 0 { code := causeArith, sub := 1 }

/-- Adds flags and saturation to the sticky registers (04 R133, R137). -/
def Lathe.sticky (l : Lathe) (sat : Bool) (fl : BitVec 5) : Lathe :=
  { l with fxsat := l.fxsat || sat, fflags := l.fflags ||| fl }

/-! ## Format VV -/

/-- The second operand of element `i` (04 SRC). -/
def Lathe.second (l : Lathe) (e : Entry) (f : FmtVV) (w i : Nat) : Nat :=
  if f.src = 0 then l.elem f.vb i w
  else if f.src = 1 then e.b.toNat % 2 ^ w
  else (f.vb.signExtend 64).toNat % 2 ^ w

/-- The control values of an entry. -/
def Lathe.ctl (l : Lathe) (e : Entry) : VCtl := ⟨sewBits e.sew, e.fpk, l.fxrnd, l.frm⟩

/-- One element of an arithmetic instruction; sources come from `l0`. -/
def vvStep (op : VvOp) (e : Entry) (f : FmtVV) (l0 : Lathe) (i : Nat) (l : Lathe) : Lathe :=
  let w := sewBits e.sew
  if l0.active f.ms i then
    let wa := if op.kind = .clip then 2 * w else w
    let r := vvElem op (l0.ctl e) (l0.elem f.va i wa) (l0.second e f w i) (l0.elem f.vd i w)
    (l.setElem f.vd i w r.val).sticky r.sat r.fl
  else if f.mz = 1 then l.setElem f.vd i w 0
  else l

/-- One element of a compare. -/
def cmpStep (op : VvOp) (e : Entry) (f : FmtVV) (l0 : Lathe) (i : Nat) (l : Lathe) : Lathe :=
  let w := sewBits e.sew
  if l0.active f.ms i then
    let r := vcElem op (l0.ctl e) (l0.elem f.va i w) (l0.second e f w i)
    (l.setMask (f.vd.toNat % 8) i r.1).sticky false r.2
  else if f.mz = 1 then l.setMask (f.vd.toNat % 8) i false
  else l

/-- One element of VMERGE (04 R129). -/
def mergeStep (e : Entry) (f : FmtVV) (l0 : Lathe) (i : Nat) (l : Lathe) : Lathe :=
  let w := sewBits e.sew
  l.setElem f.vd i w (if l0.active f.ms i then l0.second e f w i else l0.elem f.va i w)

/-- One element of VID. -/
def idStep (e : Entry) (f : FmtVV) (l0 : Lathe) (i : Nat) (l : Lathe) : Lathe :=
  let w := sewBits e.sew
  if l0.active f.ms i then l.setElem f.vd i w (i % 2 ^ w) else if f.mz = 1 then l.setElem f.vd i w 0 else l

/-- The active elements of a group in index order. -/
def Lathe.actives (l : Lathe) (ms : BitVec 3) (r : R5) (w : Nat) : List Nat :=
  ((List.range l.vl).filter fun i => l.active ms i).map fun i => l.elem r i w

/-- The tree of VFRSUM (04 R140); `fuel` bounds its depth. -/
def treeSum (f : FFmt) (rm : Rnd) : Nat → List Nat → ElemOut
  | 0, _ => { val := 0 }
  | _, [] => { val := 0 }
  | _, [x] => { val := x }
  | fuel + 1, xs =>
    let h := 2 ^ Nat.log2 (xs.length - 1)
    let a := treeSum f rm fuel (xs.take h)
    let b := treeSum f rm fuel (xs.drop h)
    let r := fpDone f rm ((f.decode a.val).add rm (f.decode b.val))
    { r with fl := r.fl ||| a.fl ||| b.fl }

/-- One combining step of the other reductions. -/
def reduceStep (op : VvOp) (k : VCtl) (acc : ElemOut) (x : Nat) : ElemOut :=
  let f := elemFmt k.w k.fpk
  match op with
  | .vrsum => { val := (acc.val + x) % 2 ^ k.w }
  | .vrmax => vvElem .vmax k acc.val x 0
  | .vrmin => vvElem .vmin k acc.val x 0
  | .vrmaxu => { val := max acc.val x }
  | .vrminu => { val := min acc.val x }
  | .vfrmax =>
    let r := extDone f false false acc.val x
    { r with fl := r.fl ||| acc.fl }
  | .vfrmin =>
    let r := extDone f true false acc.val x
    { r with fl := r.fl ||| acc.fl }
  | _ => acc

/-- A reduction (04 R140). -/
def reduceVal (op : VvOp) (k : VCtl) (init : Nat) (xs : List Nat) : ElemOut :=
  match op, xs with
  | _, [] => { val := init }
  | .vfrsum, xs =>
    let f := elemFmt k.w k.fpk
    let rm := frmRnd k.frm
    let t := treeSum f rm 17 xs
    let r := fpDone f rm ((f.decode init).add rm (f.decode t.val))
    { r with fl := r.fl ||| t.fl }
  | op, xs => xs.foldl (reduceStep op k) { val := init }

/-- One bit of a mask instruction of 0x68 (04 R130). -/
def maskOp (op : VvOp) (a b : Bool) : Bool :=
  match op with
  | .mand => a && b
  | .mor => a || b
  | .mxor => a != b
  | .mandn => a && !b
  | .mnot => !a
  | .mset => true
  | _ => false

/-- The value that a mask-to-scalar instruction or VEXT writes (04 R129, R130). -/
def scalarOf (op : VvOp) (e : Entry) (f : FmtVV) (l : Lathe) : W64 :=
  let w := sewBits e.sew
  let bits_ := (List.range l.vl).filter fun i => l.maskBit (f.va.toNat % 8) i
  match op with
  | .vmpop => BitVec.ofNat 64 bits_.length
  | .vmfirst => match bits_ with | [] => BitVec.allOnes 64 | i :: _ => BitVec.ofNat 64 i
  | _ => if e.b.toNat < vlmax e.sew e.grp then BitVec.ofNat 64 (l.elem f.va e.b.toNat w) else 0

/-- Runs a format VV instruction. -/
def runVv (op : VvOp) (e : Entry) (f : FmtVV) (p : Pace) (l : Lathe) : LatheEnd :=
  let w := sewBits e.sew
  match op.kind with
  | .compare _ => elementwise l w p 1 (cmpStep op e f l)
  | .reduce _ =>
    let init := if f.src = 1 then e.b.toNat % 2 ^ w else l.elem f.vb 0 w
    let r := reduceVal op (l.ctl e) init (l.actives f.ms f.va w)
    whole l w p ((l.setElem f.vd 0 w r.val).sticky false r.fl)
  | .mask _ =>
    whole l w p (eachElem (fun i x =>
      x.setMask (f.vd.toNat % 8) i (maskOp op (l.maskBit (f.va.toNat % 8) i) (l.maskBit (f.vb.toNat % 8) i))) 0 l.vl l)
  | .maskScalar | .extract => whole l w p l
  | .merge => elementwise l w p 1 (mergeStep e f l)
  | .insert => whole l w p (if e.b.toNat < l.vl then l.setElem f.vd e.b.toNat w (e.a.toNat % 2 ^ w) else l)
  | .index => elementwise l w p 1 (idStep e f l)
  | _ => elementwise l w p 1 (vvStep op e f l)

/-! ## VCVT (04 R139) -/

/-- A floating-point format of table 4.8. -/
def cvtFloat (c : BitVec 4) : Option FFmt :=
  match c.toNat with
  | 8 => some fp64
  | 9 => some fp32
  | 10 => some fp16
  | 11 => some bf16
  | 12 => some fp8E4m3
  | 13 => some fp8E5m2
  | _ => none

/-- The value of an element in format `c`. -/
def cvtSource (c : BitVec 4) (x : Nat) : FV :=
  match cvtFloat c with
  | some f => f.decode x
  | none => if c.toNat < 4 then FV.ofInt (toS (fmtWidth c) x) else FV.ofInt x

/-- An element converted to FP8 E4M3. -/
def toE4m3 (rm : Rnd) (sat : Bool) (v : FV) : ElemOut :=
  let f := fp8E4m3
  match v with
  | .nan s => { val := f.nan, fl := if s then fNV else 0 }
  | .inf n => { val := f.signed n (if sat then f.top - 1 else f.nan) }
  | .fin n m e =>
    let r := f.roundMag rm n m e
    if r.above then { val := f.signed n (if sat then f.top - 1 else f.nan), fl := fOF ||| fNX }
    else { val := f.signed n r.mag, fl := if r.inexact then (if r.tiny then fUF ||| fNX else fNX) else 0 }

/-- An element converted to format `c`. -/
def cvtDest (c : BitVec 4) (rm : Rnd) (sat : Bool) (v : FV) : ElemOut :=
  match c.toNat with
  | 12 => toE4m3 rm sat v
  | 13 =>
    let o := fp8E5m2.round rm v
    let fin : Bool := match v with | .fin .. => true | _ => false
    let mag := o.1 % fp8E5m2.signBit
    { val := if sat && fin && mag == fp8E5m2.top then o.1 - 1 else o.1, fl := o.2 }
  | _ =>
    match cvtFloat c with
    | some f =>
      let o := f.round rm v
      { val := o.1, fl := o.2 }
    | none =>
      let w := fmtWidth c
      let o := v.toInteger rm w (decide (c.toNat < 4))
      { val := ofS w o.1, fl := o.2 }

/-- One element of VCVT. -/
def cvtStep (f : FmtVX) (l0 : Lathe) (i : Nat) (l : Lathe) : Lathe :=
  let wd := fmtWidth f.dfmt
  if l0.active f.ms i then
    let r := cvtDest f.dfmt (frmRnd l0.frm) (f.sat == 1) (cvtSource f.sfmt (l0.elem f.va i (fmtWidth f.sfmt)))
    (l.setElem f.vd i wd r.val).sticky false r.fl
  else if f.mz = 1 then l.setElem f.vd i wd 0
  else l

/-! ## Control registers (04 R118, R122) -/

/-- The value of a lathe control register. -/
def Lathe.csr (l : Lathe) (n : BitVec 8) : W64 :=
  match n.toNat with
  | 0 => BitVec.ofNat 64 l.vl
  | 1 => BitVec.ofNat 64 ((if l.fpk then 16 else 0) + l.grp.toNat * 4 + l.sew.toNat)
  | 2 => BitVec.ofNat 64 vlenb
  | 3 => BitVec.ofNat 64 l.vpi
  | 4 => l.fxrnd.setWidth 64
  | 5 => if l.fxsat then 1 else 0
  | 6 => l.frm.setWidth 64
  | 7 => l.fflags.setWidth 64
  | _ => 0

/-- Writes a lathe control register that table 4.2 marks RW. -/
def Lathe.setCsr (l : Lathe) (n : BitVec 8) (v : W64) : Lathe :=
  match n.toNat with
  | 4 => { l with fxrnd := v.setWidth 2 }
  | 5 => { l with fxsat := v.getLsbD 0 }
  | 6 => { l with frm := v.setWidth 2 }
  | 7 => { l with fflags := v.setWidth 5 }
  | _ => l

/-! ## Tiles (04 R131) -/

/-- Element `k` of tile `t`. -/
def Forge.tile (x : Forge) (t k : Nat) : W32 := Sp.get (fun _ => 0#32) x.tiles (t * 8192 + k)

/-- The residue modulo 3 of a pattern (07 R212). -/
def residueOf (v : W32) : BitVec 2 := BitVec.ofNat 2 (v.toNat % 3)

/-- The residue stored with element `k` of tile `t`. -/
def Forge.residue (x : Forge) (t k : Nat) : BitVec 2 := Sp.get (fun _ => 0#2) x.residues (t * 8192 + k)

/-- Writes an element of a tile, and the residue stored with it (07 R212). -/
def Forge.setTile (x : Forge) (t k : Nat) (v : W32) : Forge :=
  { x with
    tiles := Sp.set (fun _ => 0#32) x.tiles (t * 8192 + k) v
    residues := Sp.set (fun _ => 0#2) x.residues (t * 8192 + k) (residueOf v) }

/-- The tile element of VTLD and VTST for element `i`. -/
def tileIndex (e : Entry) (i : Nat) : Nat := (e.a.toNat + i) % 2 ^ 64 % 8192

/-- One element of VTLD. DEDUCED, log 28. -/
def vtldStep (x : Forge) (e : Entry) (f : FmtVT) (l0 : Lathe) (i : Nat) (l : Lathe) : Lathe :=
  if l0.active f.ms i then l.setElem f.vd i 32 (x.tile f.t.toNat (tileIndex e i)).toNat
  else if f.mz = 1 then l.setElem f.vd i 32 0
  else l

/-- The tile after elements lo to lo + n - 1 of VTST. -/
def vtstFrom (e : Entry) (f : FmtVT) (l : Lathe) : Nat → Nat → Forge → Forge
  | _, 0, x => x
  | i, n + 1, x =>
    vtstFrom e f l (i + 1) n
      (if l.active f.ms i then x.setTile f.t.toNat (tileIndex e i) (BitVec.ofNat 32 (l.elem f.vd i 32)) else x)

/-! ## Memory (04 R141-R146, R150) -/

/-- The address of element `i` (04 table 4.9). -/
def vmAddr (op : VmOp) (e : Entry) (f : FmtVM) (l : Lathe) (i : Nat) : W64 :=
  let n := sewBits e.sew / 8
  match op with
  | .vld | .vst => e.a + BitVec.ofNat 64 (i * n)
  | .vlds | .vsts => e.a + BitVec.ofNat 64 i * e.b
  | _ => e.a + BitVec.ofNat 64 (l.elem f.rb i (if f.ix = 1 then 64 else 32))

/-- How the access of one element ends. -/
inductive ElemEnd where
  | ok (s : State)
  | wait (s : State) (w : EngWait)
  | raise (s : State) (c : Cause)

/-- An element access in the bench store: alignment and guard first (04 R142, R143, 03 R93). -/
def localElem (b : BenchId) (op : VmOp) (e : Entry) (f : FmtVM) (i : Nat) (a : W64) (s : State) : ElemEnd :=
  let x := s.bench b
  let w := sewBits e.sew
  let off := a.toNat % 0x200000
  if s.guarded b e.level off (w / 8) then .raise s { code := causePrivilege, sub := 5, addr := a, info := BitVec.ofNat 32 i }
  else if op.stores then .ok (s.updBench b fun x => x.writeStore off (leBytes (w / 8) (x.lathe.elem f.vd i w)))
  else if x.storePoisoned off (w / 8) then .raise s { code := causeBus, sub := subPoison, addr := a, info := BitVec.ofNat 32 i }
  else .ok (s.updLathe b fun l => l.setElem f.vd i w (leVal (x.readStore off (w / 8))))

/-- An element access by DVA; `probe` for a later element of VGATH.FF, which records no fault and never waits for one (04
R150). -/
def remoteElem (b : BenchId) (op : VmOp) (e : Entry) (f : FmtVM) (i : Nat) (a : W64) (probe : Bool) (s : State) : ElemEnd :=
  let w := sewBits e.sew
  let h := s.benchHmk b
  let who : Asker := { eng := .lathe b, el := a }
  let cause (code sub : Byte) : Cause := { code, sub, addr := a, info := BitVec.ofNat 32 i }
  if op.stores then
    match s.dvaWrite who h a (leBytes (w / 8) ((s.bench b).lathe.elem f.vd i w)) (!probe) with
    | (s, .ok) => .ok s
    | (s, .wait x) => .wait s x
    | (s, .fault sub) => .raise s (cause causeTranslation sub)
    | (s, .bad sub) => .raise s (cause causeBus sub)
  else
    match s.dvaRead who h a (w / 8) (!probe) with
    | (s, .ok d) => .ok (s.updLathe b fun l => l.setElem f.vd i w (leVal d))
    | (s, .wait x) => .wait s x
    | (s, .fault sub) => .raise s (cause causeTranslation sub)
    | (s, .bad sub) => .raise s (cause causeBus sub)

/-- The access of active element `i`. DESIGN CHOICE, log 29. -/
def elemAccess (b : BenchId) (op : VmOp) (e : Entry) (f : FmtVM) (i : Nat) (probe : Bool) (s : State) : ElemEnd :=
  let a := vmAddr op e f (s.bench b).lathe i
  if a.toNat % (sewBits e.sew / 8) ≠ 0 then .raise s { code := causeMisaligned, addr := a, info := BitVec.ofNat 32 i }
  else if f.sp = 0 then localElem b op e f i a s
  else remoteElem b op e f i a probe s

/-- How a run of a memory instruction ends. -/
inductive VmEnd where
  | done (s : State)
  | stop (s : State) (k : Nat)
  | wait (s : State) (k : Nat) (w : EngWait)
  | raise (s : State) (k : Nat) (c : Cause)

/-- Active elements above `k` of a store that may have been performed when element `k` raises a Bus error (04 R146): a free choice
for each. DESIGN CHOICE, log 30. -/
def performAbove (b : BenchId) (op : VmOp) (e : Entry) (f : FmtVM) : Nat → Nat → State → State
  | _, 0, s => s
  | i, n + 1, s =>
    let s' :=
      if (s.bench b).lathe.active f.ms i then
        if Config.storesAbove s.draws then
          match elemAccess b op e f i true s.drawn with
          | .ok s' => s'
          | _ => s.drawn
        else s.drawn
      else s
    performAbove b op e f (i + 1) n s'

/-- Elements i to i + n - 1 of a memory instruction; `first` is the first active element. -/
def vmFrom (b : BenchId) (op : VmOp) (e : Entry) (f : FmtVM) (first : Option Nat) : Nat → Nat → State → VmEnd
  | _, 0, s => .done s
  | i, n + 1, s =>
    let l := (s.bench b).lathe
    let w := sewBits e.sew
    if l.active f.ms i then
      let probe := op = .vgathFf && first ≠ some i
      match elemAccess b op e f i probe s with
      | .ok s => vmFrom b op e f first (i + 1) n s
      | .wait s w => .wait s i w
      | .raise s c =>
        if probe then .done (s.updLathe b fun l => { l with vl := i })
        else if op.stores && c.code == causeBus then .raise (performAbove b op e f (i + 1) n s) i c
        else .raise s i c
    else
      let s := if !op.stores && f.mz = 1 then s.updLathe b fun l => l.setElem f.vd i w 0 else s
      vmFrom b op e f first (i + 1) n s

/-- Runs a memory instruction from VPI, at most `stop` elements of it (04 R149). A store completes when what it has written to host memory
has left the port (R532; 08 table 8.3). -/
def runVm (b : BenchId) (op : VmOp) (e : Entry) (f : FmtVM) (stop : Option Nat) (s : State) : VmEnd :=
  let l := (s.bench b).lathe
  let first := (List.range l.vl).find? fun i => l.active f.ms i
  let m := min (stop.getD l.vl) (l.vl - l.vpi)
  match vmFrom b op e f first l.vpi m s with
  | .done s =>
    if l.vpi + m < (s.bench b).lathe.vl then .stop s (l.vpi + m)
    else if op.stores && s.portHolds (.lathe b) then .wait s l.vl .ext
    else .done s
  | r => r

/-! ## The head instruction -/

/-- The head instruction completes: its entry frees and VPI returns to 0 (04 R146, R532). -/
def State.latheDone (s : State) (b : BenchId) (l : Lathe) : State :=
  (s.updLathe b fun _ => { l with queue := l.queue.drop 1, vpi := 0, wait := none }).land (.lathe b)

/-- The head instruction waits at element `k`. -/
def State.latheWait (s : State) (b : BenchId) (k : Nat) (w : EngWait) : State :=
  s.updLathe b fun l => { l with vpi := k, wait := some w }

/-- The head instruction stops before element `k` (04 R149). -/
def State.latheStop (s : State) (b : BenchId) (k : Nat) : State := s.updLathe b fun l => { l with vpi := k, wait := none }

/-- The head instruction raises at element `k`. -/
def State.latheRaise (s : State) (b : BenchId) (l : Lathe) (e : Entry) (k : Nat) (c : Cause) : State :=
  ((s.updLathe b fun _ => { l with vpi := k }).deferLathe b e c).land (.lathe b)

/-- Ends a run that touches only the lathe; `g` is the core's part of a completion. -/
def State.latheEnd (s : State) (b : BenchId) (e : Entry) (g : Core → Core) : LatheEnd → State
  | .done l => (s.latheDone b l).updCore b g
  | .stop l k => (s.updLathe b fun _ => l).latheStop b k
  | .wait l k w => (s.updLathe b fun _ => l).latheWait b k w
  | .raise l k c => s.latheRaise b l e k c

/-- Runs the head instruction `e` of the lathe queue from VPI, as far as `p` says. -/
def latheRun (b : BenchId) (e : Entry) (p : Pace) (s : State) : State :=
  let x := s.bench b
  let l := x.lathe
  match e.instr with
  | .vsetl f =>
    s.latheDone b { l with sew := f.sew, grp := f.grp, fpk := f.fpk == 1, vl := vsetlVl f e.a }
  | .vcsr f =>
    (s.latheDone b (if f.w = 1 then l.setCsr f.csr e.a else l)).updCore b fun c => c.form f.rd (l.csr f.csr)
  | .vv op f =>
    let g (c : Core) : Core :=
      if op.kind = .maskScalar ∨ op.kind = .extract then c.form f.vd (scalarOf op e f l) else c
    s.latheEnd b e g (runVv op e f p l)
  | .vcvt f => s.latheEnd b e id (elementwise l (sewBits e.sew) p 1 (cvtStep f l))
  | .vtld f => s.latheEnd b e id (elementwise l 32 p 3 (vtldStep x.forge e f l))
  | .vtst f =>
    let r := elementwise l 32 p 1 fun _ l => l
    let stop := match r with | .raise _ k _ | .stop _ k => k | _ => l.vl
    (s.updForge b fun y => vtstFrom e f l l.vpi (stop - l.vpi) y).latheEnd b e id r
  | .vm op f =>
    match runVm b op e f p.stop s with
    | .done s => s.latheDone b (s.bench b).lathe
    | .stop s k => s.latheStop b k
    | .wait s k w => s.latheWait b k w
    | .raise s k c => s.latheRaise b (s.bench b).lathe e k c
  | _ => s

/-- The lathe may run: its clock runs, its queue is not frozen, and the bench has not been handed over (04 R149, 11 R368). -/
def State.latheOn (s : State) (b : BenchId) : Bool :=
  s.aclock b && !(s.bench b).lathe.frozen && !(s.bench b).handed

/-- The lathe can run its head instruction: nothing is waited for and no earlier operation conflicts (05 R179). -/
def State.latheReady (s : State) (b : BenchId) (e : Entry) : Bool :=
  s.latheOn b && (s.bench b).lathe.wait.isNone && (s.bench b).freeToBegin e

/-- Runs the head of the lathe queue if it can run. -/
def latheHead (b : BenchId) (p : Pace) (s : State) : State :=
  match (s.bench b).lathe.queue with
  | [] => s
  | e :: _ => if s.latheReady b e then latheRun b e p s else s

/-- The head instruction waits for something outside the device, and goes on if it has come: a response, or the departure of its last
writes from the port. -/
def latheGo (b : BenchId) (s : State) : State :=
  match (s.bench b).lathe.queue with
  | [] => s
  | e :: _ =>
    if s.latheOn b && (s.bench b).lathe.wait == some .ext then
      latheRun b e {} (s.updLathe b fun l => { l with wait := none })
    else s

/-- A lathe instruction as a command: it runs when it is at the head of the queue. With the queue empty, the core dispatches it
first (DESIGN CHOICE, log 15). Otherwise nothing changes (DESIGN CHOICE, log 10). -/
def latheCmd (b : BenchId) (i : EngInstr) (p : Pace) (s : State) : State :=
  let s := if (s.bench b).lathe.queue.isEmpty then dispatch b i s else s
  match (s.bench b).lathe.queue with
  | [] => s
  | e :: _ => if e.instr = i then latheHead b p s else s

end Sys2Proof.Machine
end

