-- ==== Sys2Proof/Machine/Forge.lean ====
section
/-! DEFINITION. The forge (05, 07): operand sources, checks, heats and sweeps, plates, the executors and their entries, residue
checks, and the commands of the array and the plate loader. -/

namespace Sys2Proof.Machine

/-! ## Plates and operand sources (05 R159, R163, R169-R172) -/

/-- Element width WE of plate `p` (0 A, 1 B). -/
def Forge.we (x : Forge) (p : Nat) : Nat := 4 * 2 ^ (if p = 0 then x.weA else x.weB).toNat

/-- Row length PC of plate `p`. -/
def Forge.pc (x : Forge) (p : Nat) : Nat := 128 * 2 ^ (if p = 0 then x.pclA else x.pclB).toNat

/-- Rows of a plate of element width `we` and row length `pc` (R159). -/
def plateRows (we pc : Nat) : Nat := 1048576 / (pc * we)

/-- Element `i` of width `w` of packed elements that begin at byte `base`. -/
def packed (m : Memory) (base i w : Nat) : Nat :=
  if w = 4 then (m.byte (base + i / 2)).toNat / (if i % 2 = 0 then 1 else 16) % 16 else m.leNat id (base + i * w / 8) (w / 8)

/-- Width that a side reads, and the position along its walk at step `k`: FMT 9 reads bytes of eight steps (R172). -/
def sideWidth (fmt : BitVec 4) : Nat := if fmt = 9 then 8 else fmtBits fmt

/-- Position along the walk at step `k`. -/
def sidePos (side : W32) (fmt : BitVec 4) (k : Nat) : Nat := bits side 23 12 + (if fmt = 9 then k / 8 else k)

/-- Element `i` of step `k` of a side that takes `n` elements for each step. -/
def Bench.sideRaw (x : Bench) (side : W32) (n : Nat) (fmt : BitVec 4) (k i : Nat) : Nat :=
  let w := sideWidth fmt
  let p := sidePos side fmt k
  let raw :=
    match bits side 31 30 with
    | 0 => packed x.lathe.v (bits side 28 24 * vlenb) (p * n + i) w
    | q =>
      let pl := q - 1
      let o := bits side 11 0 + i
      let rc := if bits side 29 29 = 1 then o * x.forge.pc pl + p else p * x.forge.pc pl + o
      packed x.forge.plates (pl * 131072) rc w
  if fmt = 9 then raw / 2 ^ (k % 8) % 2 else raw

/-- The column and row sides, and K, of an array entry (R168). -/
def Entry.col (e : Entry) : W32 := e.a.setWidth 32
def Entry.row (e : Entry) : W32 := e.a.extractLsb' 32 32
def Entry.k (e : Entry) : Nat := wbits e.b 15 0

/-- Elements for each step of the row side. -/
def rowN (wide : Bool) : Nat := if wide then 256 else 128

/-! ## The drain descriptor and locator (07 R216, tables 7.2, 7.3) -/

/-- The fields of a drain. -/
structure Drain where
  t : Nat
  wide : Bool
  clear : Bool
  ra : R5
  dst : W64
  seed : W32
  dk : Nat
  ofmt : BitVec 4
  fuse : Nat
  ffmt : Nat
  rnd : Nat
  nneg : Bool
  sat : Bool
  ti : Bool
  dstr : Nat
  fstr : Nat
  faddr : Nat
  deriving DecidableEq, Repr

/-- The drain of a queue entry: RA, RB and RC were read at dispatch (R533). -/
def Entry.drain (e : Entry) (clear : Bool) (f : FmtD) : Drain :=
  let d := e.b
  { t := f.t.toNat, wide := f.wide == 1, clear, ra := f.ra, dst := e.a, seed := d.extractLsb' 32 32, dk := wbits d 31 30
    ofmt := d.extractLsb' 26 4, fuse := wbits d 25 24, ffmt := wbits d 23 22, rnd := wbits d 21 20, nneg := d.getLsbD 19
    sat := d.getLsbD 18, ti := d.getLsbD 17, dstr := wbits d 16 0, fstr := wbits e.c 47 32, faddr := wbits e.c 20 0 }

/-- Elements of a row. -/
def Drain.n (d : Drain) : Nat := rowN d.wide

/-- Width of an output element. -/
def Drain.w (d : Drain) : Nat := fmtWidth d.ofmt

/-- Bytes of an output row. -/
def Drain.rowBytes (d : Drain) : Nat := d.n * d.w / 8

/-- Width of a fused element in bytes. -/
def Drain.fw (d : Drain) : Nat := if d.ffmt = 1 ∨ d.ffmt = 2 then 2 else 4

/-- Bench-store offset of destination row `i` with DK 1, and of the fused row `i` (R218, R223). -/
def Drain.dstAt (d : Drain) (i : Nat) : Nat := (d.dst.toNat + 64 * d.dstr * i) % 0x200000
def Drain.fusedAt (d : Drain) (i : Nat) : Nat := (d.faddr + 64 * d.fstr * i) % 0x200000

/-- The fields of a plate descriptor (05 table 5.6): STRIDE, NROW, ROW0, WE and PCL codes. -/
structure PlateDesc where
  stride : Nat
  nrow : Nat
  row0 : Nat
  we : BitVec 2
  pcl : BitVec 2
  deriving DecidableEq, Repr

/-- The plate descriptor of a word. -/
def plateDesc (w : W64) : PlateDesc :=
  { stride := wbits w 52 32, nrow := wbits w 31 20, row0 := wbits w 19 8, we := w.extractLsb' 4 2, pcl := w.extractLsb' 2 2 }

/-! ## The checks of an array operation (R173, table 5.8) -/

/-- A half of SRCD has a reserved bit set or KIND 3 (R168, table 5.5). -/
def sideBad (side : W32) : Bool :=
  match bits side 31 30 with
  | 0 => bits side 29 29 != 0 || bits side 11 0 != 0
  | 3 => true
  | _ => bits side 28 24 != 0

/-- A plate walk leaves the plate (PLATE_GEOM). -/
def Forge.walkLeaves (x : Forge) (side : W32) (n k : Nat) (fmt : BitVec 4) : Bool :=
  match bits side 31 30 with
  | 0 => false
  | q =>
    let pr := plateRows (x.we (q - 1)) (x.pc (q - 1))
    let pc := x.pc (q - 1)
    let along := if bits side 29 29 = 1 then pc else pr
    let across := if bits side 29 29 = 1 then pr else pc
    decide (across < bits side 11 0 + n) || (k != 0 && decide (along ≤ sidePos side fmt (k - 1)))

/-- A plate side whose WE is not the width that the side reads (R170). -/
def Forge.widthDiffers (x : Forge) (side : W32) (fmt : BitVec 4) : Bool :=
  bits side 31 30 != 0 && x.we (bits side 31 30 - 1) != sideWidth fmt

/-- A KIND 0 side would pass v31. -/
def sidePasses (side : W32) (n k : Nat) (fmt : BitVec 4) : Bool :=
  bits side 31 30 == 0 && decide (32 < sideEnd side n k fmt)

/-- The plate takes a geometry: one that differs clears it (R160). -/
def Forge.setGeom (x : Forge) (p : Nat) (we pcl : BitVec 2) : Forge :=
  let same := if p = 0 then x.weA = we ∧ x.pclA = pcl else x.weB = we ∧ x.pclB = pcl
  if same then x
  else
    let x := { x with plates := Sp.eraseRange x.plates (p * 131072) (p * 131072 + 131072) }
    if p = 0 then { x with weA := we, pclA := pcl } else { x with weB := we, pclB := pcl }

/-- The plates as operation `e` meets them in queue order: with the geometry of a PLOAD that the loader has accepted before it and not begun.
DEDUCED, log 32. -/
def Forge.atIssue (x : Forge) (e : Entry) : Forge :=
  match x.loaderNext with
  | none => x
  | some d =>
    match d.instr with
    | .pload f => if d.seq < e.seq then x.setGeom f.pl.toNat (plateDesc d.b).we (plateDesc d.b).pcl else x
    | _ => x

/-- The first failing check of table 5.8, as its subcause, when `e` is issued. SEED has none. -/
def Bench.arrayFault (x : Bench) (e : Entry) : Option Byte :=
  let g := e.instr.ctl
  let n := rowN g.wide
  let y := x.forge.atIssue e
  if (match e.instr with | .seed _ => true | _ => false) then none
  else if sideBad e.col || sideBad e.row || wbits e.b 63 16 != 0 then some 1
  else if e.k % stepsPer g.fmt ≠ 0 then some 2
  else if y.walkLeaves e.col 64 e.k g.fmt || y.walkLeaves e.row n e.k g.fmt then some 3
  else if y.widthDiffers e.col g.fmt || y.widthDiffers e.row g.fmt then some 4
  else if sidePasses e.col 64 e.k g.fmt || sidePasses e.row n e.k g.fmt then some 5
  else if bits e.col 31 30 ≠ 0 ∧ bits e.col 31 30 = bits e.row 31 30 then some 6
  else none

/-! ## Heats (05 R154, R171; 07 R228, R233, R234) -/

/-- Applies `g` to the first `n` elements of tile `t`. -/
def Forge.mapTile (x : Forge) (t : Nat) (g : Nat → W32 → W32) : Nat → Forge
  | 0 => x
  | n + 1 => (Forge.mapTile x t g n).setTile t n (g n (x.tile t n))

/-- Operand pairs of cell (i, j) over the `h` steps from `k0`, in tile T + 1 of a wide operation when `wt`. -/
def Bench.cellPairs (x : Bench) (e : Entry) (wt : Bool) (k0 h i j : Nat) : List (FV × FV) :=
  let g := e.instr.ctl
  (List.range h).map fun d =>
    (opValue g.fmt (x.sideRaw e.col 64 g.fmt (k0 + d) i),
      opValue g.fmt (x.sideRaw e.row (rowN g.wide) g.fmt (k0 + d) (j + if wt then 128 else 0)))

/-- Element `idx` of the tile after the heat at `o`, from its value `t`. -/
def Bench.heatElem (x : Bench) (o : ArrayOp) (idx : Nat) (t : W32) : W32 :=
  let g := o.entry.instr.ctl
  let k0 := o.heats * heatLen g
  let h := cellHeat g o.sweep (x.cellPairs o.entry o.wt k0 (min (heatLen g) (o.entry.k - k0)) (idx / 128) (idx % 128))
  let t := if g.ovw && o.sweep == 0 && o.heats == 0 then identity g else t
  promote g (riddleBits (riddleSteps (idx / 128 + 1) (x.forge.lane (idx % 128)))) h t

/-- The operation steps the riddle lanes at each promotion (06 R204). -/
def ArrCtl.stochastic (g : ArrCtl) : Bool := g.rnd == 2 && g.gop.isNone && !isInt g.fmt

/-- The forge after the heat at `o`, whole: every element of the tile is promoted. -/
def Bench.heat (x : Bench) (o : ArrayOp) : Forge :=
  let g := o.entry.instr.ctl
  let y := x.forge.mapTile (g.t + if o.wt then 1 else 0) (x.heatElem o) 8192
  if g.stochastic then y.stepLanes else y

/-- The place after the heat at `o`; none: the operation is done. -/
def ArrayOp.next (o : ArrayOp) : Option ArrayOp :=
  let g := o.entry.instr.ctl
  if o.heats + 1 < heatsPer g o.entry.k then some { o with heats := o.heats + 1 }
  else if o.sweep + 1 < sweepsOf g.fmt then some { o with sweep := o.sweep + 1, heats := 0 }
  else if g.wide && !o.wt then some { o with wt := true, sweep := 0, heats := 0 }
  else none

/-- The number of the heat at `o` in its operation, over tiles, sweeps and heats. -/
def ArrayOp.index (o : ArrayOp) : Nat :=
  let g := o.entry.instr.ctl
  ((if o.wt then sweepsOf g.fmt else 0) + o.sweep) * heatsPer g o.entry.k + o.heats

/-- Heats of a whole operation. -/
def Entry.heats (e : Entry) : Nat :=
  let g := e.instr.ctl
  (if g.wide then 2 else 1) * sweepsOf g.fmt * heatsPer g e.k

/-- A K of 0 writes the identity with OVW = 1 and nothing else (R174). DEDUCED, log 33. -/
def Forge.noSteps (x : Forge) (g : ArrCtl) : Forge :=
  if g.ovw then
    let x := x.mapTile g.t (fun _ _ => identity g) 8192
    if g.wide then x.mapTile (g.t + 1) (fun _ _ => identity g) 8192 else x
  else x

/-! ## Residue mismatches (07 R234-R236) -/

/-- Counts a mismatch in a forge cell against its physical row; at ROWTH the bench sends a service record (R236). -/
def State.countRow (s : State) (b : BenchId) (row : BitVec 7) : State :=
  let old := Sp.get (fun _ => 0#8) (s.bench b).forge.rowErr row.toNat
  let s := (s.setFld .cruRchkFail b.val 7 7 1).setFld .cruRchkFail b.val 6 0 row.toNat
  if old = 0xFF then s
  else
    let n := old + 1
    let s := s.updForge b fun x => { x with rowErr := Sp.set (fun _ => 0#8) x.rowErr row.toNat n }
    if n.toNat = s.fld .cruRchkCfg b.val 7 0 then
      s.record { src := 9, event := Config.rowEvent, unit_ := BitVec.ofNat 16 b.val, w2 := row.setWidth 64 }
    else s

/-- A mismatch in the current heat: storage mismatches count against no row. -/
def State.heatMismatch (s : State) (b : BenchId) (m : Mismatch) : State := if m.storage then s else s.countRow b m.row

/-- Arithmetic check is raised by the forge, crucible or ladle (R235). -/
def State.arithCheck (s : State) (b : BenchId) (e : Entry) (sub : Byte) : State :=
  (s.satAdd .cruRchkFail b.val 15 8 1).deferForge b e { code := causeArith, sub }

/-- The mismatches of the heat at `o`: those that the hardware meets, and one forced by INJ. -/
def State.heatMismatches (s : State) (b : BenchId) (o : ArrayOp) (mism : List Mismatch) : State × List Mismatch :=
  let ms := mism.filter fun m => m.at_ == o.index
  if (s.bench b).forge.inject then
    ((s.updForge b fun x => { x with inject := false }).drawn,
      { at_ := o.index, row := BitVec.ofNat 7 ((Config.injectedRow s.draws).toNat % 66) } :: ms)
  else (s, ms)

/-- Runs the array operation at `o` for `n` heats, or to its end. -/
def arrayFrom (b : BenchId) (mism : List Mismatch) : Nat → ArrayOp → State → State
  | 0, o, s => s.updForge b fun x => { x with array := some o }
  | n + 1, o, s =>
    match s.heatMismatches b o mism with
    | (s, m :: m2 :: _) =>
      let s := ((s.heatMismatch b m).satAdd .cruRchkStat b.val 31 16 1).heatMismatch b m2
      (s.updForge b fun x => { x with array := some o, arrayHeld := true }).arithCheck b o.entry
        (if m2.storage then 3 else 2)
    | (s, ms) =>
      let s :=
        match ms with
        | m :: _ => (s.heatMismatch b m).satAdd .cruRchkStat b.val 31 16 1
        | [] => s
      let s := s.updBench b fun x => { x with forge := x.heat o }
      match o.next with
      | some o => arrayFrom b mism n o s
      | none => s.updForge b fun x => { x with array := none }

/-! ## Executors (05 R175-R181) -/

/-- The array begins entry `e`, whose checks have passed and which conflicts with nothing. `stop`: the heats that it performs now, when not
all. -/
def arrayBegin (b : BenchId) (e : Entry) (stop : Option Nat) (mism : List Mismatch) (s : State) : State :=
  match e.instr with
  | .seed _ => s.updForge b fun x => { x with lanes := (List.range 128).map fun j => riddleSeed (e.a.setWidth 32) j }
  | i => if e.k = 0 then s.updForge b fun x => x.noSteps i.ctl else arrayFrom b mism (stop.getD e.heats) { entry := e } s

/-- The array goes on with the operation that it holds. -/
def arrayResume (b : BenchId) (o : ArrayOp) (stop : Option Nat) (mism : List Mismatch) (s : State) : State :=
  arrayFrom b mism (stop.getD o.entry.heats) o s

/-- The checks of a PLOAD at its acceptance (R162). -/
def ploadFault (e : Entry) : Option Cause :=
  let d := plateDesc e.b
  let pr := plateRows (4 * 2 ^ d.we.toNat) (128 * 2 ^ d.pcl.toNat)
  if wbits e.b 63 53 ≠ 0 ∨ wbits e.b 7 6 ≠ 0 ∨ wbits e.b 1 0 ≠ 0 then some { code := causeForge, sub := 1 }
  else if e.a.toNat % 64 ≠ 0 ∨ d.stride % 64 ≠ 0 then some { code := causeMisaligned, addr := e.a }
  else if pr < d.row0 + d.nrow then some { code := causeForge, sub := 3 }
  else none

/-- A PLOAD whose row raises holds the loader, which starts it again from its first row when the frame has been popped (R162). -/
def State.loaderRaise (s : State) (b : BenchId) (e : Entry) (c : Cause) : State :=
  (s.updForge b fun x => { x with loader := some e, loaderHeld := true }).deferForge b e c

/-- Rows n to n + k - 1 of a PLOAD; a row that a guard closes, or that reads as poisoned, stops it (R160, R162). True: all are loaded. -/
def loadRows (b : BenchId) (e : Entry) (p : Nat) : Nat → Nat → State → State × Bool
  | _, 0, s => (s, true)
  | n, k + 1, s =>
    let d := plateDesc e.b
    let len := 128 * 2 ^ d.pcl.toNat * (4 * 2 ^ d.we.toNat) / 8
    let a := (e.a.toNat + n * d.stride) % 0x200000
    let addr := BitVec.ofNat 64 a
    if s.guarded b e.level a len then (s.loaderRaise b e { code := causePrivilege, sub := 5, addr }, false)
    else if (s.bench b).storePoisoned a len then (s.loaderRaise b e { code := causeBus, sub := subPoison, addr }, false)
    else
      loadRows b e p (n + 1) k (s.updBench b fun x =>
        { x with forge := { x.forge with
          plates := x.forge.plates.setBytes id (p * 131072 + (d.row0 + n) * len) (x.readStore a len) } })

/-- The plate loader performs PLOAD entry `e` from its first row: all rows, or the first `stop` of them when preemption or quench stops it
(R162; 07 R229). -/
def loaderBegin (b : BenchId) (e : Entry) (stop : Option Nat) (s : State) : State :=
  match e.instr with
  | .pload f =>
    let d := plateDesc e.b
    let m := min (stop.getD d.nrow) d.nrow
    match loadRows b e f.pl.toNat 0 m (s.updForge b fun x => { x.setGeom f.pl.toNat d.we d.pcl with loader := none }) with
    | (s, true) => if m < d.nrow then s.updForge b fun x => { x with loader := some e } else s
    | (s, false) => s
  | _ => s

/-! ## The interlock of the bench-store arbiter (08 R247) -/

/-- Two ranges of bench-store addresses, each an offset and a length, share a 64-byte unit. -/
def sameUnit (a b : Nat × Nat) : Bool :=
  let units (r : Nat × Nat) : List Nat :=
    if r.2 = 0 then [] else (List.range ((r.1 + r.2 - 1) / 64 + 1 - r.1 / 64)).map fun k => (r.1 / 64 + k) % 0x8000
  (units a).any (units b).contains

/-- The bench-store ranges that a forge entry reads, and those that it writes: rows of a PLOAD; fused operands and rows of a drain. -/
def Entry.storeRanges (e : Entry) : List (Nat × Nat) × List (Nat × Nat) :=
  match e.instr with
  | .pload _ =>
    let d := plateDesc e.b
    ((List.range d.nrow).map fun n =>
      ((e.a.toNat + n * d.stride) % 0x200000, 128 * 2 ^ d.pcl.toNat * (4 * 2 ^ d.we.toNat) / 8), [])
  | .drain clear f =>
    let d := e.drain clear f
    (if d.fuse = 0 then [] else (List.range 64).map fun i => (d.fusedAt i, d.n * d.fw),
      if d.dk = 1 then (List.range 64).map fun i => (d.dstAt i, d.rowBytes) else [])
  | _ => ([], [])

/-- Entry `e` meets no earlier entry of the forge in a 64-byte unit that one of them writes: it reads what earlier drains have written, and it
overwrites nothing that an earlier PLOAD has still to read. DEDUCED, log 146. -/
def Bench.storeFree (x : Bench) (e : Entry) : Bool :=
  let meet (p q : List (Nat × Nat)) : Bool := p.any fun a => q.any fun c => sameUnit a c
  x.forge.ops.all fun d =>
    e.seq ≤ d.seq || !(meet e.storeRanges.1 d.storeRanges.2 || meet e.storeRanges.2 d.storeRanges.1)

/-- TSYNC waits for this operation: it accesses a tile or plate that the mask names (R181). -/
def tsyncWaits (mask : W64) (d : Entry) : Bool :=
  (d.access.1 ++ d.access.2).any fun r => decide (32 ≤ r) && mask.getLsbD (r - 32)

/-- TSYNC entry `e` at the head of the queue (R181). -/
def tsyncHead (b : BenchId) (e : Entry) (s : State) : State :=
  let x := s.bench b
  match e.instr with
  | .tsync f =>
    if wbits e.a 63 34 ≠ 0 then s.deferForge b e { code := causeForge, sub := 1 }
    else if (x.forge.accessing ++ x.lathe.queue).any fun d => decide (d.seq < e.seq) && tsyncWaits e.a d then s
    else s.updBench b fun x =>
      { x with core := x.core.form f.rd 0, forge := { x.forge with queue := x.forge.queue.drop 1 } }
  | _ => s

/-- The head of the forge queue leaves it. -/
def State.forgePop (s : State) (b : BenchId) : State := s.updForge b fun y => { y with queue := y.queue.drop 1 }

/-- The forge queue issues its head to the array, which checks it first (R173, R175). -/
def issueArray (b : BenchId) (e : Entry) (stop : Option Nat) (mism : List Mismatch) (s : State) : State :=
  let x := s.bench b
  if x.forge.arrayHeld || x.forge.arrayNext.isSome then s
  else
    match x.arrayFault e with
    | some sub => s.deferForge b e { code := causeForge, sub }
    | none =>
      if x.forge.array.isNone && x.freeToBegin e then arrayBegin b e stop mism (s.forgePop b)
      else (s.forgePop b).updForge b fun y => { y with arrayNext := some e }

/-- The loader can begin a PLOAD: it performs no other, and nothing that conflicts is left. -/
def Bench.loaderFree (x : Bench) (e : Entry) : Bool := x.forge.loader.isNone && x.freeToBegin e && x.storeFree e

/-- The forge queue issues its head to the plate loader, which checks it first. -/
def issueLoader (b : BenchId) (stop : Option Nat) (e : Entry) (s : State) : State :=
  let x := s.bench b
  if x.forge.loaderNext.isSome then s
  else
    match ploadFault e with
    | some c => s.deferForge b e c
    | none =>
      if x.loaderFree e then loaderBegin b e stop (s.forgePop b)
      else (s.forgePop b).updForge b fun y => { y with loaderNext := some e }

/-- The forge's executors run: the clock runs, and the bench has not been handed over (07 R229, 11 R368). -/
def State.forgeRuns (s : State) (b : BenchId) : Bool := s.aclock b && !(s.bench b).handed

/-- The forge queue can issue. -/
def State.forgeOn (s : State) (b : BenchId) : Bool := s.forgeRuns b && !(s.bench b).forge.frozen

/-- A stalled array entry begins when nothing it conflicts with is left. -/
def arrayRelease (b : BenchId) (stop : Option Nat) (mism : List Mismatch) (s : State) : State :=
  let x := s.bench b
  match x.forge.arrayNext with
  | none => s
  | some e =>
    if x.forge.array.isNone && !x.forge.arrayHeld && x.freeToBegin e then
      arrayBegin b e stop mism (s.updForge b fun y => { y with arrayNext := none })
    else s

/-- A PLOAD that was stopped starts again, or a stalled one begins. -/
def loaderRelease (b : BenchId) (stop : Option Nat) (s : State) : State :=
  let x := s.bench b
  match x.forge.loader, x.forge.loaderNext with
  | some e, _ => if x.forge.loaderHeld then s else loaderBegin b e stop s
  | none, some e => if x.loaderFree e then loaderBegin b e stop (s.updForge b fun y => { y with loaderNext := none }) else s
  | none, none => s

/-- The array has been idle for 1,024 A-cycles or more and the governor has not granted IFORGE (15 table 15.4, row 5).
DESIGN CHOICE, log 37. -/
def State.forgeParked (s : State) (b : BenchId) : Bool :=
  let x := s.bench b
  decide (1024 ≤ (x.core.cycle - x.forge.lastArray).toNat) && !x.forge.granted

/-- The array has worked: its idle time begins anew, and a grant is used up. -/
def State.arrayWorked (s : State) (b : BenchId) : State :=
  s.updBench b fun x => { x with forge := { x.forge with lastArray := x.core.cycle, granted := false } }

/-- The entry that waits in the array begins, unless the governor still parks the array. -/
def arrayGo (b : BenchId) (stop : Option Nat) (mism : List Mismatch) (s : State) : State :=
  if s.forgeParked b then s
  else
    let t := arrayRelease b stop mism s
    if (s.bench b).forge.arrayNext.isSome && (t.bench b).forge.arrayNext.isNone then t.arrayWorked b else t

/-- The head of the forge queue is issued to the array, unless the governor still parks the array. -/
def arrayIssue (b : BenchId) (e : Entry) (stop : Option Nat) (mism : List Mismatch) (s : State) : State :=
  if s.forgeParked b then s
  else
    let t := issueArray b e stop mism s
    let began := (t.bench b).forge.queue.length < (s.bench b).forge.queue.length
    if began && (t.bench b).forge.arrayNext.isNone then t.arrayWorked b else t

/-- An instruction as a command for the head of the forge queue, on which `run` acts. With the queue empty, the core dispatches it first (DESIGN
CHOICE, log 15). -/
def headCmd (b : BenchId) (i : EngInstr) (run : Entry → State → State) (s : State) : State :=
  let s := if (s.bench b).forge.queue.isEmpty then dispatch b i s else s
  match (s.bench b).forge.queue with
  | [] => s
  | e :: _ => if e.instr = i && s.forgeOn b then run e s else s

/-- An array instruction as a command: it goes on in the array if the array holds it; begins there if it waits there; else the queue's head is
issued if it is this instruction. A first operation after a long idle time waits for the governor's grant. -/
def arrayCmd (b : BenchId) (i : EngInstr) (stop : Option Nat) (mism : List Mismatch) (s : State) : State :=
  let y := (s.bench b).forge
  if y.array.any fun o => o.entry.instr == i then
    match y.array with
    | some o => if !y.arrayHeld && s.forgeRuns b then (arrayResume b o stop mism s).arrayWorked b else s
    | none => s
  else if y.array.isNone && y.arrayNext.any fun e => e.instr == i then
    if s.forgeRuns b then arrayGo b stop mism s else s
  else headCmd b i (fun e => arrayIssue b e stop mism) s

/-- A PLOAD as a command: it starts again, or begins, in the loader, or is issued. -/
def ploadCmd (b : BenchId) (i : EngInstr) (stop : Option Nat) (s : State) : State :=
  let y := (s.bench b).forge
  if (y.loader <|> y.loaderNext).any fun e => e.instr == i then
    if s.forgeRuns b then loaderRelease b stop s else s
  else headCmd b i (issueLoader b stop) s

/-- FORGE_RESTART_GRANT: the governor grants IFORGE, and the first array operation after a long idle time may proceed. -/
def execForgeRestartGrant (b : BenchId) (s : State) : Host.Outcome State Fault Refusal :=
  act s fun s => if s.forgeParked b then s.updForge b fun x => { x with granted := true } else s

/-! ## Commands -/

/-- FOP. -/
def execFop (b : BenchId) (f : FmtF) (stop : Option Nat) (mism : List Mismatch) (s : State) :
    Host.Outcome State Fault Refusal :=
  act s (arrayCmd b (.fop f) stop mism)

/-- FGAUGE. -/
def execFgauge (b : BenchId) (f : FmtG) (stop : Option Nat) (mism : List Mismatch) (s : State) :
    Host.Outcome State Fault Refusal :=
  act s (arrayCmd b (.fgauge f) stop mism)

/-- SEED. -/
def execSeed (b : BenchId) (f : FmtSeed) (s : State) : Host.Outcome State Fault Refusal :=
  act s (arrayCmd b (.seed f) none [])

/-- PLOAD. -/
def execPload (b : BenchId) (x : Moving FmtPL) (s : State) : Host.Outcome State Fault Refusal :=
  act s (ploadCmd b (.pload x.f) x.stop)

/-- TSYNC. -/
def execTsync (b : BenchId) (f : FmtTS) (s : State) : Host.Outcome State Fault Refusal :=
  act s (headCmd b (.tsync f) (tsyncHead b))

/-- RESIDUE_INJECT: a write of 1 to CRU_RCHK_CFG.INJ. -/
def State.residueInject (s : State) (b : BenchId) : State := s.updForge b fun x => { x with inject := true }

/-- RESIDUE_INJECT. -/
def execResidueInject (b : BenchId) (s : State) : Host.Outcome State Fault Refusal := act s fun s => s.residueInject b

/-- ROW_COUNT_CLEAR: a write of 1 to CRU_ROWERR_CNT.CLR clears the count of the row in CRU_ROWERR_SEL. -/
def State.rowCountClear (s : State) (b : BenchId) : State :=
  s.updForge b fun x => { x with rowErr := Sp.erase x.rowErr (s.fld .cruRowerrSel b.val 6 0) }

/-- ROW_COUNT_CLEAR. -/
def execRowCountClear (b : BenchId) (s : State) : Host.Outcome State Fault Refusal := act s fun s => s.rowCountClear b

/-! ## Spare rows (05 R185-R188) -/

/-- The bench is at a quiescent point (R186). -/
def Forge.quiescent (x : Forge) : Bool := x.ops.isEmpty && !x.dross

/-- VALID, BAD and ROW of spare `sp` in FRG_ROWMAP. -/
def State.spareValid (s : State) (b : BenchId) (sp : Nat) : Bool := (s.reg ⟨.frgRowmap, b.val, 0⟩).getLsbD (15 + 16 * sp)
def State.spareBad (s : State) (b : BenchId) (sp : Nat) : Bool := (s.reg ⟨.frgRowmap, b.val, 0⟩).getLsbD (14 + 16 * sp)
def State.spareRow (s : State) (b : BenchId) (sp : Nat) : Nat := s.fld .frgRowmap b.val (13 + 16 * sp) (8 + 16 * sp)

/-- R187 refuses the request. -/
def State.spareRefused (s : State) (b : BenchId) (sp : Nat) (rel : Bool) (row : Nat) : Bool :=
  s.fld .frgSpareCtl b.val 30 30 == 1 || s.spareBad b sp || (s.spareValid b sp && s.spareRow b sp != row)
    || (rel && !((List.range 2).any fun k => s.spareValid b k && s.spareRow b k == row))

/-- A write of FRG_SPARE_CTL with GO = 1: a request, whose fields it stores, or ERR (R186). A refused request changes nothing else (R187). A
pending request stops dross work (R176). DEDUCED, log 34. -/
def State.spareWrite (s : State) (b : BenchId) (sp rel : Bool) (row : BitVec 6) : State :=
  if s.spareRefused b (if sp then 1 else 0) rel row.toNat then s.setFld .frgSpareCtl b.val 29 29 1
  else
    let s := (s.setFld .frgSpareCtl b.val 15 15 (if sp then 1 else 0)).setFld .frgSpareCtl b.val 14 14 (if rel then 1 else 0)
    let s := (s.setFld .frgSpareCtl b.val 5 0 row.toNat).setFld .frgSpareCtl b.val 30 30 1
    s.updForge b fun y => { y with dross := false, duty := 0, spare := some (sp, rel, row) }

/-- Spare `k` replaces no row that equals `row` any more. -/
def State.spareDrop (s : State) (b : BenchId) (row k : Nat) : State :=
  if s.spareValid b k && s.spareRow b k == row then
    (s.setFld .frgRowmap b.val (15 + 16 * k) (15 + 16 * k) 0).setFld .frgRowmap b.val (13 + 16 * k) (8 + 16 * k) 0
  else s

/-- The physical row on which logical row `row` runs: a spare is 64 or 65 (R185). -/
def State.rowNow (s : State) (b : BenchId) (row : Nat) : Nat :=
  if s.spareValid b 0 && s.spareRow b 0 == row then 64
  else if s.spareValid b 1 && s.spareRow b 1 == row then 65
  else row

/-- The pending request takes effect at a quiescent point (R186). A switch retires the row that served before it (17 R491). -/
def State.spareApply (s : State) (b : BenchId) : State :=
  match (s.bench b).forge.spare with
  | none => s
  | some (sp, rel, r) =>
    if s.aclock b && (s.bench b).forge.quiescent then
      let row := r.toNat
      let k := if sp then 1 else 0
      let old := s.rowNow b row
      let s := (((s.spareDrop b row 0).spareDrop b row 1).setFld .frgSpareCtl b.val 30 30 0).updForge b fun y => { y with spare := none }
      if rel then s
      else
        ((s.setFld .frgRowmap b.val (13 + 16 * k) (8 + 16 * k) row).setFld .frgRowmap b.val (15 + 16 * k) (15 + 16 * k) 1).addEntry 3
          (b.val * 256 + old * 65536)
    else s

/-- SPARE_SWITCH_REQUEST. -/
def execSpareSwitchRequest (b : BenchId) (sp rel : Bool) (row : BitVec 6) (s : State) : Host.Outcome State Fault Refusal :=
  act s fun s => s.spareWrite b sp rel row

/-- SPARE_SWITCH_APPLY. -/
def execSpareSwitchApply (b : BenchId) (s : State) : Host.Outcome State Fault Refusal := act s fun s => s.spareApply b

end Sys2Proof.Machine
end

