-- ==== Sys2Proof/Machine/Ladle.lean ====
section
/-! DEFINITION. The ladle (07): what a drain computes, where its rows go, its checks, and how it stops and completes. -/

namespace Sys2Proof.Machine

/-! ## The checks at acceptance (R217) -/

/-- A reserved field or value of the descriptor or, with a fused operand, of the locator. -/
def Entry.drainDesc (e : Entry) (d : Drain) : Bool :=
  d.dk == 3 || d.ofmt == 3 || d.ofmt == 7 || d.ofmt == 14 || d.ofmt == 15 || d.fuse == 3 || d.rnd == 3
    || (d.dk == 0 && d.dstr != 0) || (d.fuse != 0 && (wbits e.c 63 48 != 0 || wbits e.c 31 21 != 0))

/-- Every bench-store byte that the drain writes, or reads as fused operand. -/
def Drain.storeBytes (d : Drain) : List Nat :=
  (List.range 64).flatMap fun i =>
    (if d.dk = 1 then (List.range d.rowBytes).map fun k => (d.dstAt i + k) % 0x200000 else [])
      ++ (if d.fuse ≠ 0 then (List.range (d.n * d.fw)).map fun k => (d.fusedAt i + k) % 0x200000 else [])

/-- The first failing check. -/
def State.drainFault (s : State) (b : BenchId) (e : Entry) (d : Drain) : Option Cause :=
  if e.drainDesc d then some { code := causeForge, sub := 1 }
  else if d.dk = 0 ∧ 32 < d.ra.toNat + d.n * 64 * d.w / 32768 then some { code := causeForge, sub := 7 }
  else if d.dk ≠ 0 ∧ d.dst.toNat % 64 ≠ 0 then some { code := causeMisaligned, addr := d.dst }
  else if d.fuse ≠ 0 ∧ d.faddr % 64 ≠ 0 then some { code := causeMisaligned, addr := BitVec.ofNat 64 d.faddr }
  else
    match (d.storeBytes.filter fun a => s.guarded b e.level a 1).min? with
    | some a => some { code := causePrivilege, sub := 5, addr := BitVec.ofNat 64 a }
    | none => none

/-! ## One element (R218-R222) -/

/-- The value of a tile element. -/
def Drain.tileValue (d : Drain) (t : W32) : FV := if d.ti then FV.ofInt t.toInt else fp32.decode t.toNat

/-- The value of a fused element. -/
def Drain.fusedValue (d : Drain) (z : Nat) : FV :=
  match d.ffmt with
  | 0 => fp32.decode z
  | 1 => bf16.decode z
  | 2 => fp16.decode z
  | _ => FV.ofInt (toS 32 z)

/-- The exact value x. -/
def Drain.exact (d : Drain) (t : W32) (z : Nat) : FV :=
  let x := d.tileValue t
  match d.fuse with
  | 1 => (x.add .near (d.fusedValue z)).1
  | 2 => (x.mul (d.fusedValue z)).1
  | _ => x

/-- Rounds x once into a floating-point OFMT (R219, table 7.4). -/
def drainFloat (f : FFmt) (rm : Rnd) (sat : Bool) : FV → Nat
  | .nan _ => f.nan
  | .inf n => if f.e4m3 then (if sat then f.signed n (f.top - 1) else f.nan) else f.signed n f.top
  | .fin n m e =>
    let r := f.roundMag rm n m e
    if !r.above then f.signed n r.mag
    else if rm = .zero ∨ sat then f.signed n (f.top - 1)
    else if f.e4m3 then f.nan
    else f.signed n f.top

/-- NNEG on a floating-point result: negative results and -0 become +0; a NaN stays. -/
def nnegFloat (f : FFmt) (v : Nat) : Nat :=
  match f.decode v with
  | .nan _ => v
  | x => if x.neg? then 0 else v

/-- The output element for tile element `t`, fused element `z` and riddle bits `r`. -/
def Drain.elem (d : Drain) (t : W32) (z r : Nat) : Nat :=
  let rm : Rnd := if d.rnd = 0 then .near else if d.rnd = 1 then .zero else .stoch r
  let x := d.exact t z
  match cvtFloat d.ofmt with
  | some f =>
    let v := drainFloat f rm d.sat x
    if d.nneg then nnegFloat f v else v
  | none =>
    let v := (x.toInteger rm d.w (decide (d.ofmt.toNat < 4))).1
    ofS d.w (if d.nneg then max v 0 else v)

/-! ## Rows (R222-R224) -/

/-- Steps of a ladle lane before element (i, j): its row and tile included. -/
def Drain.laneSteps (d : Drain) (i j : Nat) : Nat := if d.wide then 2 * i + 1 + j / 128 else i + 1

/-- The riddle bits of element (i, j). -/
def Drain.riddle (d : Drain) (i j : Nat) : Nat := riddleBits (riddleSteps (d.laneSteps i j) (riddleSeed d.seed (j % 128)))

/-- The fused element of (i, j), as the bench store of `x` holds it. -/
def Bench.fused (x : Bench) (d : Drain) (i j : Nat) : Nat :=
  if d.fuse = 0 then 0 else leVal (x.readStore (d.fusedAt i + j * d.fw) d.fw)

/-- Output element (i, j), its fused operand read in the store of `z`. -/
def Bench.drainElem (x z : Bench) (d : Drain) (i j : Nat) : Nat :=
  d.elem (x.forge.tile (d.t + j / 128) (128 * i + j % 128)) (z.fused d i j) (d.riddle i j)

/-- Row i as bytes. -/
def Bench.drainRow (x : Bench) (d : Drain) (i : Nat) : List Byte :=
  (List.range d.n).flatMap fun j => leBytes (d.w / 8) (x.drainElem x d i j)

/-- Row i into v-registers (DK 0). -/
def Bench.rowToV (x : Bench) (d : Drain) (i : Nat) : Nat → Lathe → Lathe
  | 0, l => l
  | n + 1, l => (Bench.rowToV x d i n l).setElem d.ra (d.n * i + n) d.w (x.drainElem x d i n)

/-- No column from `j` on of destination row `i` lies on the fused element of column `j`: only then can the element read all of its operand's
new contents, since it is converted before column `j` is written (R224). -/
def Drain.newSeen (d : Drain) (i j : Nat) : Bool :=
  let lo := d.dstAt i + j * d.w / 8
  (List.range d.fw).all fun k =>
    let a := (d.fusedAt i + j * d.fw + k) % 0x200000
    !((List.range ((d.n - j) * d.w / 8)).any fun m => (lo + m) % 0x200000 == a)

/-- Columns j to j + n - 1 of row i into the bench store (DK 1). Where the row overlaps its fused operand, an element reads the
old or the new contents (R224): `x0` is the bench before the row. DEDUCED, log 147. -/
def rowToStore (d : Drain) (i : Nat) (x0 : Bench) (draws : Nat) : Nat → Nat → Bench → Bench
  | _, 0, x => x
  | j, n + 1, x =>
    let z := if Config.oldOrNew (draws + j) || !d.newSeen i j then x0 else x
    rowToStore d i x0 draws (j + 1) n (x.writeStore (d.dstAt i + j * d.w / 8) (leBytes (d.w / 8) (x0.drainElem z d i j)))

/-- Row i of a drain with DK 0 or 1 is read, converted and written. -/
def State.ladleRow (s : State) (b : BenchId) (d : Drain) (i : Nat) : State :=
  if d.dk = 0 then s.updBench b fun x => { x with lathe := x.rowToV d i d.n x.lathe }
  else
    let x := s.bench b
    let s := s.updBench b fun y => rowToStore d i x s.draws 0 d.n y
    { s with draws := s.draws + d.n }

/-! ## Completion, holding and mismatches (R225, R234, R235) -/

/-- DRAIN.C clears what was drained (R225). -/
def Forge.clearDrained (x : Forge) (d : Drain) : Forge :=
  if d.clear then
    let x := x.mapTile d.t (fun _ _ => 0) 8192
    if d.wide then x.mapTile (d.t + 1) (fun _ _ => 0) 8192 else x
  else x

/-- The drain completes. -/
def State.ladleDone (s : State) (b : BenchId) (d : Drain) : State :=
  (s.updForge b fun x => { (x.clearDrained d) with ladle := none }).land (.ladle b)

/-- The ladle holds the drain at row `i` and raises (R235, 10 R329). A mismatch that rows from `i` on would have met is forgotten. -/
def State.ladleHold (s : State) (b : BenchId) (e : Entry) (i : Nat) (c : Cause) : State :=
  ((s.updForge b fun x => { x with ladle := some { entry := e, rows := i }, ladleHeld := true }).deferForge b e c).land
    (.ladle b)

/-- The fused operand of row i holds a block that reads as poisoned. DEDUCED, log 35. -/
def Bench.fusedPoisoned (x : Bench) (d : Drain) (i : Nat) : Bool :=
  d.fuse != 0 && x.storePoisoned (d.fusedAt i) (d.n * d.fw)

/-- The row's check (R234): the state after counting its mismatches, and whether a second one holds the drain. -/
def State.rowCheck (s : State) (b : BenchId) (i : Nat) (mism : List Mismatch) : State × Bool :=
  match mism.filter fun m => m.at_ == i with
  | [] => (s, false)
  | [_] => (s.satAdd .cruRchkStat b.val 15 0 1, false)
  | _ => (s.satAdd .cruRchkStat b.val 15 0 1, true)

/-- Rows i to 63 of a drain with DK 0 or 1, at most `n` of them. -/
def ladleFrom (b : BenchId) (e : Entry) (d : Drain) (mism : List Mismatch) : Nat → Nat → State → State
  | 0, i, s =>
    if 64 ≤ i then s.ladleDone b d else s.updForge b fun x => { x with ladle := some { entry := e, rows := i } }
  | n + 1, i, s =>
    if 64 ≤ i then s.ladleDone b d
    else
      match s.rowCheck b i mism with
      | (s, true) => (s.ladleHold b e i { code := causeArith, sub := 3 }).satAdd .cruRchkFail b.val 15 8 1
      | (s, false) =>
        if (s.bench b).fusedPoisoned d i then
          s.ladleHold b e i { code := causeBus, sub := subPoison, addr := BitVec.ofNat 64 (d.fusedAt i) }
        else ladleFrom b e d mism n (i + 1) (s.ladleRow b d i)

/-- The ladle begins, or goes on with, a drain at row `i`. A drain with DK 2 then hands its rows over one by one, which meet the mismatches
`mism` (R234). -/
def ladleRun (b : BenchId) (e : Entry) (i : Nat) (stop : Option Nat) (mism : List Mismatch) (s : State) : State :=
  match e.instr with
  | .drain clear f =>
    let d := e.drain clear f
    if d.dk = 2 then
      s.updForge b fun x =>
        { x with ladle := some (match x.ladle with
            | some o => { o with mism := o.mism ++ mism }
            | none => { entry := e, rows := i, mism }) }
    else ladleFrom b e d mism (stop.getD 64) i s
  | _ => s

/-! ## The progress record (R232) -/

/-- The drain in the ladle is stopped: held, at a row boundary, or, with DK 2, by preemption or quench. -/
def State.drainStopped (s : State) (b : BenchId) : Bool :=
  match (s.bench b).forge.ladle with
  | none => false
  | some o => (s.bench b).forge.ladleHeld || wbits o.entry.b 31 30 != 2 || !s.forgeRuns b

/-- Words 0 to 2: the stopped array operation. -/
def ArrayOp.record (o : ArrayOp) : List W64 :=
  [1#1 ++ 0#27 ++ o.entry.instr.word, o.entry.a,
    o.entry.epc ++ BitVec.ofNat 16 o.entry.k ++ BitVec.ofNat 16 o.heats ++ 0#12 ++ BitVec.ofBool o.wt ++ 0#1 ++ BitVec.ofNat 2 o.sweep]

/-- Words 3 to 7: the stopped drain. -/
def LadleOp.record (o : LadleOp) : List W64 :=
  [1#1 ++ 0#11 ++ o.entry.epc ++ o.entry.instr.word, o.entry.b, if wbits o.entry.b 31 30 = 0 then 0 else o.entry.a, o.entry.c,
    BitVec.ofNat 64 (o.rows % 128)]

/-- The 72 words of table 7.8. -/
def State.progressRecord (s : State) (b : BenchId) : List W64 :=
  let x := (s.bench b).forge
  (match x.array with | some o => o.record | none => List.replicate 3 0)
    ++ (match x.ladle with | some o => if s.drainStopped b then o.record else List.replicate 5 0 | none => List.replicate 5 0)
    ++ (List.range 64).map fun n => x.lane (2 * n + 1) ++ x.lane (2 * n)

/-! ## DK 2 (R223; 10 R328, R329) -/

/-- Carter 2b + 1 is in service. -/
def State.ladleCarter (s : State) (b : BenchId) : Bool :=
  s.fld .crtBStatus (2 * b.val + 1) 29 29 == 1 && s.fld .crtBStatus (2 * b.val + 1) 31 31 == 0

/-- Row `i` of the drain in the ladle has failed with cause `c`: the lowest such row counts (10 R329). -/
def State.rowFailed (s : State) (b : BenchId) (i : Nat) (c : Cause) : State :=
  s.updForge b fun x =>
    { x with ladle := x.ladle.map fun o =>
        { o with failed := (match o.failed with | some (j, _) => if j ≤ i then o.failed else some (i, c) | none => some (i, c)) } }

/-- The cause of a row that fails by Bus error, or by another cause: ADDR is the row's DVA. -/
def Drain.rowCause (d : Drain) (i : Nat) (code sub : Byte) : Cause :=
  { code, sub, addr := d.dst + BitVec.ofNat 64 (64 * d.dstr * i) }

/-- The drain of DK 2 in the ladle, with its descriptor. -/
def Forge.handing (x : Forge) : Option (LadleOp × Drain) :=
  match x.ladle with
  | none => none
  | some o =>
    match o.entry.instr with
    | .drain clear f => if wbits o.entry.b 31 30 = 2 then some (o, o.entry.drain clear f) else none
    | _ => none

/-- Every row handed over has been acknowledged or has failed: the drain is held at its lowest failing row, or it completes with its last row
(10 R329). Where it is being stopped, no cause is raised, and it resumes at that row (10 R535). -/
def ladleSettle (b : BenchId) (s : State) : State :=
  match (s.bench b).forge.handing with
  | none => s
  | some (o, d) =>
    if (s.bench b).forge.ladleHeld || !s.settled (.ladle b) then s
    else
      match o.failed with
      | some (i, c) =>
        if s.forgeRuns b then s.ladleHold b o.entry i c
        else s.updForge b fun x => { x with ladle := some { o with rows := i, failed := none } }
      | none => if o.rows = 64 && s.aclock b then s.ladleDone b d else s

/-- The ladle has a row for carter 2b + 1, and waits for nothing. -/
def State.mayHand (s : State) (b : BenchId) : Bool :=
  match (s.bench b).forge.handing with
  | none => false
  | some (o, _) =>
    decide (o.rows < 64) && o.wait.isNone && o.failed.isNone && !(s.bench b).forge.ladleHeld && s.forgeRuns b && s.ladleCarter b

/-- LADLE_ROW_HANDOFF: carter 2b + 1 translates the next row's pages and takes the row. After a row has failed, no other is handed over. -/
def ladleHandoff (b : BenchId) (s : State) : State :=
  match (s.bench b).forge.handing with
  | none => s
  | some (o, d) =>
    let i := o.rows
    if !s.mayHand b then s
    else
      let fail (s : State) (c : Cause) : State := ladleSettle b (s.rowFailed b i c)
      match s.rowCheck b i o.mism with
      | (s, true) => fail (s.satAdd .cruRchkFail b.val 15 8 1) { code := causeArith, sub := 3 }
      | (s, false) =>
        if (s.bench b).fusedPoisoned d i then
          fail s { code := causeBus, sub := subPoison, addr := BitVec.ofNat 64 (d.fusedAt i) }
        else
          let a := d.dst + BitVec.ofNat 64 (64 * d.dstr * i)
          match s.dvaWriteRow { eng := .ladle b, run := i, el := a } (s.benchHmk b) a ((s.bench b).drainRow d i) with
          | (s, .ok) => s.updForge b fun x => { x with ladle := some { o with rows := i + 1 } }
          | (s, .wait w) => s.updForge b fun x => { x with ladle := some { o with wait := some w } }
          | (s, .fault sub) => fail s (d.rowCause i causeTranslation sub)
          | (s, .bad sub) => fail s (d.rowCause i causeBus sub)

/-- Row `i` of the drain is answered by a failure: its write is awaited no longer. -/
def ladleFail (b : BenchId) (i : Nat) (sub : Byte) (s : State) : State :=
  match (s.bench b).forge.handing with
  | none => s
  | some (_, d) =>
    ladleSettle b ((s.forget fun f => f.who.eng == .ladle b && f.who.run == i).rowFailed b i (d.rowCause i causeBus sub))

/-- DRAIN_ACK_COMPLETE: every row is acknowledged, or a row that was handed over and not acknowledged fails. -/
def drainAck (b : BenchId) (fail : Option (Nat × ExtStatus)) (s : State) : State :=
  match fail with
  | none => ladleSettle b s
  | some (i, st) =>
    if st ≠ .ok && !s.runSettled { eng := .ladle b, run := i } then ladleFail b i (extSub st) s else s

/-! ## Commands -/

/-- The ladle can begin a drain: it performs no other, and nothing that conflicts is left. -/
def Bench.ladleFree (x : Bench) (e : Entry) : Bool := x.forge.ladle.isNone && x.freeToBegin e && x.storeFree e

/-- The forge queue issues its head to the ladle, which checks it first (R217). -/
def issueLadle (b : BenchId) (e : Entry) (stop : Option Nat) (mism : List Mismatch) (s : State) : State :=
  let x := s.bench b
  match e.instr with
  | .drain clear f =>
    if x.forge.ladleHeld || x.forge.ladleNext.isSome then s
    else
      match s.drainFault b e (e.drain clear f) with
      | some c => s.deferForge b e c
      | none =>
        if x.ladleFree e then ladleRun b e 0 stop mism (s.forgePop b)
        else (s.forgePop b).updForge b fun y => { y with ladleNext := some e }
  | _ => s

/-- A stalled drain begins. -/
def ladleRelease (b : BenchId) (stop : Option Nat) (mism : List Mismatch) (s : State) : State :=
  let x := s.bench b
  match x.forge.ladleNext with
  | none => s
  | some e =>
    if x.ladleFree e then ladleRun b e 0 stop mism (s.updForge b fun y => { y with ladleNext := none })
    else s

/-- A drain as a command, as for the array's instructions. -/
def drainCmd (b : BenchId) (i : EngInstr) (stop : Option Nat) (mism : List Mismatch) (s : State) : State :=
  let y := (s.bench b).forge
  if y.ladle.any fun o => o.entry.instr == i then
    match y.ladle with
    | some o => if !y.ladleHeld && s.forgeRuns b then ladleRun b o.entry o.rows stop mism s else s
    | none => s
  else if y.ladle.isNone && y.ladleNext.any fun e => e.instr == i then
    if s.forgeRuns b then ladleRelease b stop mism s else s
  else headCmd b i (fun e => issueLadle b e stop mism) s

/-- DRAIN. -/
def execDrain (b : BenchId) (f : FmtD) (stop : Option Nat) (mism : List Mismatch) (s : State) :
    Host.Outcome State Fault Refusal :=
  act s (drainCmd b (.drain false f) stop mism)

/-- DRAIN.C. -/
def execDrainC (b : BenchId) (f : FmtD) (stop : Option Nat) (mism : List Mismatch) (s : State) :
    Host.Outcome State Fault Refusal :=
  act s (drainCmd b (.drain true f) stop mism)

/-- LADLE_ROW_HANDOFF. -/
def execLadleRowHandoff (b : BenchId) (s : State) : Host.Outcome State Fault Refusal := act s (ladleHandoff b)

/-- DRAIN_ACK_COMPLETE. -/
def execDrainAckComplete (b : BenchId) (fail : Option (Nat × ExtStatus)) (s : State) : Host.Outcome State Fault Refusal :=
  act s (drainAck b fail)

/-- SCOREBOARD_RELEASE: operations that stood stalled and conflict with nothing any more begin: those of the forge's executors,
and a TSYNC at the head of its queue; or the head of the lathe queue (05 R178-R181). DEDUCED, log 38. -/
def scoreboardRelease (b : BenchId) (forge : Bool) (s : State) : State :=
  if !s.forgeRuns b then s
  else if forge then
    let s := ladleRelease b none [] (loaderRelease b none (arrayGo b none [] s))
    match (s.bench b).forge.queue with
    | e :: _ => if s.forgeOn b then tsyncHead b e s else s
    | [] => s
  else latheHead b {} s

/-- SCOREBOARD_RELEASE. -/
def execScoreboardRelease (b : BenchId) (forge : Bool) (s : State) : Host.Outcome State Fault Refusal :=
  act s (scoreboardRelease b forge)

end Sys2Proof.Machine
end

