-- ==== Sys2Proof/Machine/Gmem.lean ====
section
/-! DEFINITION. Scalar accesses by DVA and atomic operations: checks, translation, waits and responses (02 R56-R58; 08 R240, R255,
R263-R266; 09 R281-R292), fences and the release wait (08 R251-R257), and CINV (08 R261). -/

namespace Sys2Proof.Machine

/-! ## The release wait (08 R252-R254, R257, R266) -/

/-- The writes to peers that a wait at Peer scope awaits. -/
def State.peersQuiet (s : State) (b : BenchId) (lq fq : Bool) : Bool :=
  !s.unacked (.core b) && !(lq && s.unacked (.lathe b)) && !(fq && s.unacked (.ladle b))

/-- The writes to host memory that a wait of any scope awaits have left the port (08 table 8.3). -/
def State.portQuiet (s : State) (b : BenchId) (lq fq : Bool) : Bool :=
  !s.portHolds (.core b) && !(lq && s.portHolds (.lathe b)) && !(fq && s.portHolds (.ladle b))

/-- The wait set of the instruction `w` is empty: a fence, a RING, PEAL or CHIME, or an atomic operation with MO. The model
performs every local access at once, so that only queue entries, writes in the port and writes to peers are
waited for. -/
def State.released (s : State) (b : BenchId) (w : W36) : Bool :=
  let x := s.bench b
  match (w.extractLsb' 24 8).toNat with
  | 0x3C =>
    let lq := w.getLsbD 20
    let fq := w.getLsbD 19
    !(lq && !x.lathe.queue.isEmpty) && !(fq && !x.forge.ops.isEmpty)
      && s.portQuiet b lq fq && (w.extractLsb' 21 3 != 4#3 || s.peersQuiet b lq fq)
  | 0x26 => w.setWidth 3 == 0#3 || (s.portQuiet b false false && (w.setWidth 3 != 5#3 || s.peersQuiet b false false))
  | 0x38 | 0x3A => s.portQuiet b false false && (w.extractLsb' 21 3 != 4#3 || s.peersQuiet b false false)
  | 0x3B => s.portQuiet b false false && s.peersQuiet b false false
  | _ => true

/-- The stall of instruction `w` has ended: the instruction can run again. -/
def State.unfence (s : State) (b : BenchId) (w : W36) : State :=
  if (s.bench b).core.stall = some (.fence w) && s.released b w then s.updCore b fun c => { c with stall := none } else s

/-- An instruction with a release wait: it stalls until its wait set is empty, and its command then completes it. -/
def releasing (b : BenchId) (f : Form) (body : State → Body) (s : State) : State :=
  issue b f (fun s => if s.released b f.word then body s else .stall s (.fence f.word)) (s.unfence b f.word)

/-! ## Values of atomic operations (08 table 8.6) -/

/-- The new value of a location of `w` bits. -/
def atomicNew (aop w old operand expect : Nat) : Nat :=
  let o := operand % 2 ^ w
  match aop with
  | 0 | 12 => o
  | 1 => (old + o) % 2 ^ w
  | 2 => old &&& o
  | 3 => old ||| o
  | 4 => old ^^^ o
  | 5 => if toS w old ≤ toS w o then old else o
  | 6 => if toS w old ≤ toS w o then o else old
  | 7 => min old o
  | 8 => max old o
  | 9 => if old = expect % 2 ^ w then o else old
  | 10 =>
    let f := if w = 32 then fp32 else fp64
    (f.round .near ((f.decode old).add .near (f.decode o)).1).1
  | _ => old

/-- The access kind of an atomic operation (09 R281): ALD reads, AST writes. -/
def atomicAcc (aop : BitVec 4) : Acc := if aop = 11 then .read else if aop = 12 then .write else .rmw

/-! ## The scalar data cache by DPA (08 R240) -/

/-- The bytes of a DPA access as a cached line holds them. -/
def Bench.cachedBytes (x : Bench) (a len : Nat) : Option (List Byte) :=
  (x.dcache.find? fun c => c.space = 1 ∧ c.line = a / 64).map fun c => (c.data.drop (a % 64)).take len

/-- The bench's own STG updates a line of the ingot or yard that its cache holds. -/
def Bench.updateLine (x : Bench) (a : Nat) (data : List Byte) : Bench :=
  { x with dcache := x.dcache.map fun c =>
      if c.space = 1 ∧ c.line = a / 64 then { c with data := overwrite c.data (a % 64) data } else c }

/-- Removes the line of an address of kind `sp`. -/
def Bench.dropLine (x : Bench) (sp line : Nat) : Bench :=
  { x with dcache := x.dcache.filter fun c => !(c.space = sp && c.line = line) }

/-- After an LDG, its line of the ingot or yard is cached in normal mode. -/
def State.cacheLine (s : State) (b : BenchId) (h : BitVec 12) (p : Piece) : State :=
  match p.target with
  | .dpa a =>
    if windowBase ≤ a || s.plumb b || (s.bench b).cached 1 (a / 64) then s
    else
      match s.dpaRead { hmk := h, smask := p.way.smask, shop := some (shopOf b) } (a / 64 * 64) 64 p.way.watched (!p.nofill) with
      | (s', .ok d) => s'.updBench b fun x => x.install { space := 1, line := a / 64, data := d }
      | (_, .bad _) => s
  | _ => s

/-! ## Performing an access -/

/-- The data of a piece that the scalar data cache serves: in normal mode, a line of the ingot or yard that it holds (02 R57). -/
def State.cachedPiece (s : State) (b : BenchId) (p : Piece) : Option (List Byte) :=
  if s.plumb b then none
  else
    match p.target with
    | .dpa a => (s.bench b).cachedBytes a p.len
    | _ => none

/-- How a read of pieces ends: the data; the Bus error of the first piece that fails, with its DVA and place; or a response is awaited. -/
inductive PiecesRd where
  | ok (data : List Byte)
  | bad (e : Byte × W64 × Nat)
  | ext
  deriving DecidableEq, Repr

/-- A read of the pieces in order, the lower half first (02 R58). -/
def State.readPieces (b : BenchId) (h : BitVec 12) : Nat → List Piece → List Byte → State → State × PiecesRd
  | _, [], d, s => (s, .ok d)
  | k, p :: r, d, s =>
    match s.cachedPiece b p with
    | some e => State.readPieces b h (k + 1) r (d ++ e) s
    | none =>
      if p.cut then (s, .bad (subLink, p.dva, k))
      else
        match s.engRead { eng := .core b, el := p.dva } h p.dva p.way p.len (!p.nofill) with
        | (s, .ok e) => State.readPieces b h (k + 1) r (d ++ e) s
        | (s, .bad sub) => (s, .bad (sub, p.dva, k))
        | (s, .ext) => (s, .ext)

/-- Writes the pieces in order, the low bytes first; the first that fails ends it (02 R58). DESIGN CHOICE, log 44. -/
def State.writePieces (b : BenchId) (h : BitVec 12) : Nat → List Piece → List Byte → State → State × Option (Byte × W64 × Nat)
  | _, [], _, s => (s, none)
  | k, p :: r, d, s =>
    match s.engWrite { eng := .core b, el := p.dva } h p.dva p.way (d.take p.len) with
    | (s, .bad sub) => (s, some (sub, p.dva, k))
    | (s, _) =>
      let s :=
        match p.target with
        | .dpa a => s.updBench b fun x => x.updateLine a (d.take p.len)
        | _ => s
      State.writePieces b h (k + 1) r (d.drop p.len) s

/-- The bytes at a DPA, unchecked. -/
def State.rawBytes (s : State) (a n : Nat) : List Byte :=
  match windowOf a with
  | some (b, off) => (s.bench b).readStore off n
  | none => s.mem.dram.bytes id a n

/-- The lot, or the bench of a window, refuses requester `q` (09 R306; 08 R243). -/
def State.dpaRefuses (s : State) (q : Requester) (a n : Nat) (write : Bool) : Bool :=
  match windowOf a with
  | some (b, off) => s.windowRefused q b off n write
  | none => !s.dramAllows q a write

/-- An atomic operation at a DPA: its old bytes (08 R263, R264). It reads past the requester's shop cache, and what it writes updates a
line that this cache holds (08 R241). Every one but ALD counts as a write (09 R306); AST tests nothing that it overwrites. -/
def State.dpaAtomic (s : State) (q : Requester) (a n : Nat) (watched : Bool) (aop : BitVec 4) (operand expect : W64) :
    State × MemOut :=
  let past : Requester := { q with shop := none }
  if aop = 11 then s.dpaRead past a n watched
  else if s.dpaRefuses q a n true then (s.logDeny q.hmk (lotOf a) true, .bad subDenied)
  else
    match (if aop = 12 then (s, MemOut.ok (s.rawBytes a n)) else s.dpaRead past a n watched) with
    | (s, .bad sub) => (s, .bad sub)
    | (s, .ok d) =>
      match s.dpaWrite q a (leBytes n (atomicNew aop.toNat (8 * n) (leVal d) operand.toNat expect.toNat)) watched with
      | (s, .ok _) => (s, .ok d)
      | (s, .bad sub) => (s, .bad sub)

/-- An atomic operation outside the device is performed there on the old value `old`. -/
def State.farAtomic (s : State) (p : Piece) (aop : BitVec 4) (operand expect : W64) (old : Nat) : State :=
  if aop = 11 then s
  else s.farWrite p.target (leBytes p.len (atomicNew aop.toNat (8 * p.len) old operand.toNat expect.toNat))

/-- How an atomic operation ends: the old value, a Bus error subcause, or its response is awaited. -/
inductive AtomicRd where
  | ok (old : Nat)
  | bad (sub : Byte)
  | ext
  deriving DecidableEq, Repr

/-- An atomic operation of a core at its location. It passes both caches, and removes the line from the core's own (08 R264). -/
def State.atomicAt (s : State) (b : BenchId) (h : BitVec 12) (p : Piece) (aop : BitVec 4) (operand expect : W64) :
    State × AtomicRd :=
  match p.target with
  | .dpa a =>
    if (s.sleeps a).isSome then (s, .ext)
    else
      match s.dpaAtomic { hmk := h, smask := p.way.smask, shop := some (shopOf b) } a p.len p.way.watched aop operand expect with
      | (s, .ok d) => (s.updBench b fun x => x.dropLine 1 (a / 64), .ok (leVal d))
      | (s, .bad sub) => (s, .bad sub)
  | _ =>
    match s.reply? { eng := .core b } p.dva with
    | none => (s, .ext)
    | some r =>
      match r.out with
      | .ok d => (s.farAtomic p aop operand expect (leVal d), .ok (leVal d))
      | .bad sub => (s, .bad sub)
      | .ext => (s, .ext)

/-- A-cycles beyond Fetch of a DVA access of `n` pieces. -/
def State.dvaCycles (s : State) (b : BenchId) (n : Nat) (hit : Bool) : Nat :=
  4 + (if n ≤ 1 then 0 else if hit && !s.plumb b then 1 else 4)

/-- A-cycles beyond Fetch up to the Memory state of piece `k`: an upper half has one further Memory state (02 R52, table 2.7). -/
def State.raiseCycles (s : State) (b : BenchId) (k : Nat) (hit : Bool) : Nat := 3 + (if k = 0 then 0 else s.dvaCycles b 2 hit - 4)

/-- Raises a Bus error that memory reported for a piece. -/
def busBody (s : State) (cyc : Nat) (e : Byte × W64 × Nat) : Body :=
  .raise s cyc { code := causeBus, sub := e.1, addr := e.2.1, info := infoOf e.2.2 }

/-- Every piece of a load is a line that the scalar data cache holds: the data. -/
def State.cachedPieces (s : State) (b : BenchId) : List Piece → Option (List Byte)
  | [] => some []
  | p :: r =>
    match s.cachedPiece b p, State.cachedPieces s b r with
    | some d, some e => some (d ++ e)
    | _, _ => none

/-- A stack guard of the bench whose window a piece names closes the piece (08 R243, 03 R93). -/
def State.pieceGuarded (s : State) (p : Piece) : Bool :=
  match p.target with
  | .dpa a =>
    match windowOf a with
    | some (x, off) => (s.bench x).openStore && decide (off < 0x200000) && s.guardedAll x off p.len
    | none => false
  | _ => false

/-- The first piece of a list that satisfies `p`, with its place. -/
def firstPiece (p : Piece → Bool) : Nat → List Piece → Option (Piece × Nat)
  | _, [] => none
  | k, x :: r => if p x then some (x, k) else firstPiece p (k + 1) r

/-- What the requests of an access ask of memory. -/
def Access.op (a : Access) : ReqOp :=
  match a.kind with
  | .atomic aop _ operand expect => .atomic aop (a.size == 8) operand expect
  | _ => .read

/-- The requests of an access leave the core, and it waits for the responses. -/
def State.departAll (s : State) (b : BenchId) (h : BitVec 12) (a : Access) (ps : List Piece) : Body :=
  .stall ((ps.filter fun p => !p.cut).foldl (fun s p => s.depart { who := { eng := .core b, el := p.dva }, hmk := h, dva := p.dva, len := p.len, way := p.way } a.op) s)
    (.response a ps)

/-- A store of the pieces is performed, or waits for room in the queue of a stack in self-refresh (13 R414). -/
def State.performStore (s : State) (b : BenchId) (a : Access) (ps : List Piece) (v : W64) : Body :=
  let full := ps.any fun p => match p.target with | .dpa x => (s.sleeps x).any s.chanFull | _ => false
  if full then .stall s (.response a ps)
  else
    let hit := ps.all fun p => match p.target with | .dpa x => (s.bench b).cached 1 (x / 64) | _ => false
    match State.writePieces b (s.benchHmk b) 0 ps (leBytes a.size v.toNat) s with
    | (s', none) => .done s' (s.dvaCycles b ps.length hit) false
    | (s', some e) => busBody s' (s.raiseCycles b e.2.2 hit) e

/-- The access after its translations: it is performed, or its requests leave and the core waits for the responses. A stack guard on either
half raises before either is performed (02 R58). DEDUCED, log 41. -/
def State.perform (s : State) (b : BenchId) (a : Access) (ps : List Piece) : Body :=
  let h := s.benchHmk b
  let ps := ps.map fun p => { p with cut := s.cutOff p.target }
  let write := match a.kind with | .load .. => false | .store _ => true | .atomic aop .. => aop != 11
  match firstPiece s.pieceGuarded 0 ps with
  | some (p, k) =>
    busBody (s.logDeny h (lotOf (match p.target with | .dpa x => x | _ => 0)) write) (s.raiseCycles b k false) (subDenied, p.dva, k)
  | none =>
    match a.kind with
    | .load rd sx =>
      match s.cachedPieces b ps with
      | some d =>
        .done (s.updCore b fun c => c.wr rd (extendLoad a.size sx (leVal d))) (s.dvaCycles b ps.length true) false
      | none => if ps.head?.any (·.cut) then busBody s 3 (subLink, a.ea, 0) else s.departAll b h a ps
    | .store v => s.performStore b a ps v
    | .atomic aop .. =>
      let fn := ps.head?.bind fun p => p.target.fn?
      let hostOk (f : BitVec 6) : Bool := (aop == 0 || aop == 1 || aop == 9) && (s.fn f.toNat).atomicRequester
      if ps.any (·.cut) || fn.any (fun f => !hostOk f) then busBody s 3 (subLink, a.ea, 0)
      else s.departAll b h a ps

/-! ## Translation and the checks (02 R58, table 3.6) -/

/-- What translating the pieces of an access gives. -/
inductive PieceOut where
  | ok (ps : List Piece)
  | wait (w : EngWait)
  | fault (sub : Byte) (dva : W64) (k : Nat)
  deriving DecidableEq, Repr

/-- Translates every piece; a fault raised at once on any comes before a wait. -/
def State.translatePieces (b : BenchId) (h : BitVec 12) (acc : Acc) :
    Nat → List (W64 × Nat) → State → State × PieceOut
  | _, [], s => (s, .ok [])
  | k, (dva, len) :: r, s =>
    match s.translate (.core b) h dva acc with
    | (s, .fault sub) => (s, .fault sub dva k)
    | (s, .ok way) =>
      match State.translatePieces b h acc (k + 1) r s with
      | (s, .ok ps) => (s, .ok ({ way, dva, len } :: ps))
      | o => o
    | (s, .wait n) =>
      match State.translatePieces b h acc (k + 1) r s with
      | (s, .fault sub d j) => (s, .fault sub d j)
      | (s, _) => (s, .wait (.fault n))
    | (s, .quota) =>
      match State.translatePieces b h acc (k + 1) r s with
      | (s, .fault sub d j) => (s, .fault sub d j)
      | (s, _) => (s, .wait .quota)

/-- The access kind of a scalar access (09 R281). -/
def AccessKind.acc : AccessKind → Acc
  | .load .. => .read
  | .store _ => .write
  | .atomic aop .. => atomicAcc aop

/-- The access translates its pieces, from the core's place in program order, and goes on, waits or raises. -/
def State.translateAccess (s : State) (b : BenchId) (a : Access) : Body :=
  let parts := match a.kind with | .atomic .. => [(a.ea, a.size)] | _ => accessParts a.ea a.size
  match State.translatePieces b (s.benchHmk b) a.kind.acc 0 parts (s.withdraw (.core b)) with
  | (s, .ok ps) => s.perform b a ps
  | (s, .wait w) => .stall s (.fault a w)
  | (s, .fault sub dva k) =>
    .raise (s.withdraw (.core b)) 3 { code := causeTranslation, sub, addr := dva, info := infoOf k }

/-- A scalar access by DVA: misalignment, watchpoints, translation (02 R58; table 3.6 orders 6 to 8). -/
def State.access (s : State) (b : BenchId) (a : Access) : Body :=
  let c := (s.bench b).core
  let atomic := match a.kind with | .atomic .. => true | _ => false
  let parts := if atomic then [(a.ea, a.size)] else accessParts a.ea a.size
  if (atomic || !c.len) && a.ea.toNat % a.size ≠ 0 then .raise s 3 { code := causeMisaligned, addr := a.ea }
  else
    let r := match a.kind with | .store _ => false | _ => true
    let w := match a.kind with | .load .. => false | _ => true
    match s.firstWatch b 1 r w 0 parts with
    | some (k, d, m) => s.watchBody b m 3 d (infoOf k)
    | none => s.translateAccess b a

/-! ## A core that stands still (01 R33; 02 R86; 03 R111) -/

/-- The core executes nothing now: its A-clock stands, or it is halted and no step runs. -/
def State.coreHeld (s : State) (b : BenchId) : Bool :=
  !s.aclock b || ((s.bench b).core.halted && !(s.bench b).core.stepping)

/-- What waits until the bench goes on. -/
def State.later (s : State) (l : Late) : State := { s with late := s.late ++ [l] }

/-- A waiting access translates again (09 R295); one of a core that stands still does so when it goes on. -/
def coreRetry (b : BenchId) (s : State) : State :=
  match (s.bench b).core.stall with
  | some (.fault a _) => if s.coreHeld b then s.later (.retry b) else s.finish b { word := a.word } (s.translateAccess b a)
  | _ => s

/-- A waiting access is abandoned: Translation fault with the entry's subcause (09 R296). The first piece of the page is ADDR. A halted core
takes no entry (03 R111). -/
def coreAbandon (b : BenchId) (n page : Nat) (sub : Byte) (s : State) : State :=
  match (s.bench b).core.stall with
  | some (.fault a _) =>
    if s.coreHeld b then s.later (.abandon (.core b) n page sub a.ea)
    else
      let parts := match a.kind with | .atomic .. => [(a.ea, a.size)] | _ => accessParts a.ea a.size
      match firstPart (fun d _ => d.toNat / 65536 == page) 0 parts with
      | some p => (s.withdraw (.core b)).resumeRaise b a.word 3 { code := causeTranslation, sub, addr := p.2, info := infoOf p.1 }
      | none => s
  | _ => s

/-! ## Responses (02 R52, 08 R255) -/

/-- The waiting access completes if what it waits for has come, or raises what memory reported. -/
def coreGo (b : BenchId) (s : State) : State :=
  match (s.bench b).core.stall with
  | some (.response a ps) =>
    let h := s.benchHmk b
    let fail (s : State) (e : Byte × W64 × Nat) : State :=
      (s.land (.core b)).resumeRaise b a.word (s.raiseCycles b e.2.2 false)
        { code := causeBus, sub := e.1, addr := e.2.1, info := infoOf e.2.2 }
    if s.coreHeld b then s
    else
      match a.kind with
      | .load rd sx =>
        match State.readPieces b h 0 ps [] s with
        | (t, .ok d) =>
          (ps.foldl (fun s p => s.cacheLine b h p) (t.land (.core b))).resume b (s.dvaCycles b ps.length false) fun c =>
            c.wr rd (extendLoad a.size sx (leVal d))
        | (t, .bad e) => fail t e
        | (_, .ext) => s
      | .atomic aop rd operand expect =>
        match ps with
        | p :: _ =>
          match s.atomicAt b h p aop operand expect with
          | (t, .ok old) => (t.land (.core b)).resume b 4 fun c => if aop = 12 then c else c.wr rd (BitVec.ofNat 64 old)
          | (t, .bad sub) => fail t (sub, a.ea, 0)
          | (_, .ext) => s
        | [] => s
      | .store v => s.finish b { word := a.word } (s.performStore b a ps v)
  | _ => s

/-- LDG_RESPONSE: the response of an LDG, or of an atomic operation, from this device's memory. -/
def ldgResponse (b : BenchId) (s : State) : State := coreGo b s

/-- RESPONSE_TIMEOUT: Bus error, TIMEOUT; an atomic operation may already have been performed (08 R255). -/
def responseTimeout (b : BenchId) (s : State) : State :=
  match (s.bench b).core.stall with
  | some (.response a ps) =>
    if s.coreHeld b then s
    else
      let late := Config.atomicDone s.draws
      let s := s.drawn
      let s :=
        match a.kind, ps with
        | .atomic aop _ operand expect, p :: _ =>
          if !late then s
          else
            match p.target with
            | .dpa _ => (s.atomicAt b (s.benchHmk b) p aop operand expect).1
            | far => s.farAtomic p aop operand expect (leVal (s.farBytes far p.len))
        | _, _ => s
      (s.land (.core b)).resumeRaise b a.word 3 { code := causeBus, sub := subTimeout, addr := a.ea }
  | _ => s

/-- LDG_RESPONSE. -/
def execLdgResponse (b : BenchId) (s : State) : Host.Outcome State Fault Refusal := act s (ldgResponse b)

/-- RESPONSE_TIMEOUT. -/
def execResponseTimeout (b : BenchId) (s : State) : Host.Outcome State Fault Refusal := act s (responseTimeout b)

/-! ## Atomic operations (08 R263-R266) -/

/-- An atomic operation in the bench store. -/
def atomicLocal (b : BenchId) (aop : BitVec 4) (f : FmtAtom) (s : State) : Body :=
  let c := (s.bench b).core
  let n := if f.sz = 1 then 8 else 4
  let ea := c.rd f.ra
  let off := ea.toNat % 0x200000
  if ea.toNat % n ≠ 0 then .raise s 5 { code := causeMisaligned, addr := ea }
  else
    match s.watchpoint b 0 off n true true with
    | some m => s.watchBody b m 5 ea 0
    | none =>
      if s.guarded b c.pl off n then .raise s 5 { code := causePrivilege, sub := 5, addr := ea }
      else if aop ≠ 12 && (s.bench b).storePoisoned off n then .raise s 5 { code := causeBus, sub := subPoison, addr := ea }
      else
        let old := leVal ((s.bench b).readStore off n)
        let new := atomicNew aop.toNat (8 * n) old (c.rd f.rb).toNat (c.rd f.rd).toNat
        .done (s.updBench b fun x =>
          let x := if aop = 11 then x else x.writeStore off (leBytes n new)
          let x := x.dropLine 0 (off / 64)
          { x with core := if aop = 12 then x.core else x.core.wr f.rd (BitVec.ofNat 64 old) }) 6 false

/-- First DVA of the register path of Master level (16 R469). DEDUCED, log 43. -/
def masterPath : Nat := 0xFFFFFFC000000

/-- The access by DVA of an atomic operation. -/
def atomicAccess (aop : BitVec 4) (f : FmtAtom) (c : Core) : Access :=
  { kind := .atomic aop f.rd (c.rd f.rb) (c.rd f.rd), ea := c.rd f.ra, size := if f.sz = 1 then 8 else 4, word := f.word 0x26 aop }

/-- An atomic operation. At Master level one in the register range touches no register (16 R469); a watchpoint that covers it matches first (02
R87, 03 table 3.6). -/
def atomicBody (b : BenchId) (aop : BitVec 4) (f : FmtAtom) (s : State) : Body :=
  let c := (s.bench b).core
  if f.sp = 0 then atomicLocal b aop f s
  else
    let a := atomicAccess aop f c
    if c.pl = 2 && masterPath ≤ a.ea.toNat && a.ea.toNat < 2 ^ 52 && a.ea.toNat % a.size = 0 then
      match s.firstWatch b 1 true true 0 [(a.ea, a.size)] with
      | some (k, d, m) => s.watchBody b m 3 d (infoOf k)
      | none => busBody s 3 (subDenied, a.ea, 0)
    else s.access b a

/-- An atomic operation as a command. -/
def atomicCmd (b : BenchId) (aop : BitVec 4) (f : FmtAtom) (s : State) : State :=
  let illegal := 6 ≤ f.mo.toNat || (aop == 12 && f.rd != 0) || (aop == 11 && f.rb != 0)
  releasing b { word := f.word 0x26 aop, illegal, regs := [f.rd, f.ra, f.rb] } (atomicBody b aop f) s

/-- ASWAP. -/
def execAswap (b : BenchId) (f : FmtAtom) (s : State) : Host.Outcome State Fault Refusal := act s (atomicCmd b 0 f)
/-- AADD. -/
def execAadd (b : BenchId) (f : FmtAtom) (s : State) : Host.Outcome State Fault Refusal := act s (atomicCmd b 1 f)
/-- AAND. -/
def execAand (b : BenchId) (f : FmtAtom) (s : State) : Host.Outcome State Fault Refusal := act s (atomicCmd b 2 f)
/-- AOR. -/
def execAor (b : BenchId) (f : FmtAtom) (s : State) : Host.Outcome State Fault Refusal := act s (atomicCmd b 3 f)
/-- AXOR. -/
def execAxor (b : BenchId) (f : FmtAtom) (s : State) : Host.Outcome State Fault Refusal := act s (atomicCmd b 4 f)
/-- AMIN. -/
def execAmin (b : BenchId) (f : FmtAtom) (s : State) : Host.Outcome State Fault Refusal := act s (atomicCmd b 5 f)
/-- AMAX. -/
def execAmax (b : BenchId) (f : FmtAtom) (s : State) : Host.Outcome State Fault Refusal := act s (atomicCmd b 6 f)
/-- AMINU. -/
def execAminu (b : BenchId) (f : FmtAtom) (s : State) : Host.Outcome State Fault Refusal := act s (atomicCmd b 7 f)
/-- AMAXU. -/
def execAmaxu (b : BenchId) (f : FmtAtom) (s : State) : Host.Outcome State Fault Refusal := act s (atomicCmd b 8 f)
/-- ACAS. -/
def execAcas (b : BenchId) (f : FmtAtom) (s : State) : Host.Outcome State Fault Refusal := act s (atomicCmd b 9 f)
/-- AFADD. -/
def execAfadd (b : BenchId) (f : FmtAtom) (s : State) : Host.Outcome State Fault Refusal := act s (atomicCmd b 10 f)
/-- ALD. -/
def execAld (b : BenchId) (f : FmtAtom) (s : State) : Host.Outcome State Fault Refusal := act s (atomicCmd b 11 f)
/-- AST. -/
def execAst (b : BenchId) (f : FmtAtom) (s : State) : Host.Outcome State Fault Refusal := act s (atomicCmd b 12 f)

/-! ## Fences (08 R251-R256) -/

/-- FENCE at a scope: it completes when its wait set is empty, and stalls until then. DEDUCED, log 39. -/
def fenceCmd (b : BenchId) (scope : BitVec 3) (f : FmtFence) (s : State) : State :=
  releasing b { word := f.word 0x3C scope, illegal := f.rsv != 0 } (fun s => .done s 3 false) s

/-- FENCE.B. -/
def execFenceB (b : BenchId) (f : FmtFence) (s : State) : Host.Outcome State Fault Refusal := act s (fenceCmd b 0 f)
/-- FENCE.S. -/
def execFenceS (b : BenchId) (f : FmtFence) (s : State) : Host.Outcome State Fault Refusal := act s (fenceCmd b 1 f)
/-- FENCE.H. -/
def execFenceH (b : BenchId) (f : FmtFence) (s : State) : Host.Outcome State Fault Refusal := act s (fenceCmd b 2 f)
/-- FENCE.D. -/
def execFenceD (b : BenchId) (f : FmtFence) (s : State) : Host.Outcome State Fault Refusal := act s (fenceCmd b 3 f)
/-- FENCE.P. -/
def execFenceP (b : BenchId) (f : FmtFence) (s : State) : Host.Outcome State Fault Refusal := act s (fenceCmd b 4 f)

/-- FENCE_TIMEOUT: a fence, or a release wait, that has waited past its limit raises Bus error, TIMEOUT, ADDR 0 (08 R254). -/
def fenceTimeout (b : BenchId) (s : State) : State :=
  match (s.bench b).core.stall with
  | some (.fence w) => if !s.coreHeld b then s.resumeRaise b w 2 { code := causeBus, sub := subTimeout } else s
  | _ => s

/-- FENCE_TIMEOUT. -/
def execFenceTimeout (b : BenchId) (s : State) : Host.Outcome State Fault Refusal := act s (fenceTimeout b)

/-! ## CINV (08 R261) -/

/-- The target of DVA `d` for CINV: a page with no valid translation is skipped, and nothing is recorded. -/
def State.cinvTarget (s : State) (b : BenchId) (d : Nat) : State × Option Nat :=
  match s.translate (.core b) (s.benchHmk b) (BitVec.ofNat 64 d) .read false with
  | (s, .ok g) => (s, match g.target with | .dpa a => some a | _ => none)
  | (s, _) => (s, none)

/-- The fills of waiting loads of a bench that satisfy `hit`, by line of the shop cache, do not install their lines (R262). -/
def Bench.barFills (x : Bench) (hit : Nat → Bool) : Bench :=
  let bar (p : Piece) : Piece :=
    match p.target with
    | .dpa a => { p with nofill := p.nofill || hit (a / 128) }
    | _ => p
  match x.core.stall with
  | some (.response a ps) => { x with core := { x.core with stall := some (.response a (ps.map bar)) } }
  | _ => x

/-- Invalidates the lines of a shop's cache that satisfy `hit`, and bars fills of such lines that are in flight. -/
def State.shopInvalidate (s : State) (k : ShopId) (hit : Nat → Bool) : State :=
  { s.setShopCache k ((s.shopCache k).filter fun l => !hit l.line) with
    benches := s.benches.map fun e => (e.1, if e.1 / 16 = k.val then e.2.barFills hit else e.2) }

/-- Invalidates the scalar lines, and with `shop` the shop-cache lines, of one line address. -/
def State.cinvLine (s : State) (b : BenchId) (shop : Bool) (a : Nat) : State :=
  let s := s.updBench b fun x => x.dropLine 1 (a / 64)
  if shop then s.shopInvalidate (shopOf b) fun l => l == a / 128 else s

/-- The `n` lines of 64 bytes from DVA `d`. -/
def State.cinvLines (b : BenchId) (shop : Bool) : Nat → Nat → State → State
  | _, 0, s => s
  | d, n + 1, s =>
    match s.cinvTarget b d with
    | (s, some a) => State.cinvLines b shop (d + 64) n (s.cinvLine b shop a)
    | (s, none) => State.cinvLines b shop (d + 64) n s

/-- A stall of free length counts in CYCLE (02 R52). -/
def State.stallFree (s : State) (b : BenchId) : State :=
  (s.updCore b fun c => { c with cycle := c.cycle + Config.stallCycles s.draws }).drawn

/-- CINV. A range of more than 32 KiB invalidates the whole scalar data cache, and one of 8 MiB or more the whole shop cache. The wait for the
shop cache counts as a stall (R269). -/
def cinvBody (b : BenchId) (f : FmtCinv) (s : State) : Body :=
  let c := (s.bench b).core
  let whole (s : State) : State := s.updBench b fun x => { x with dcache := [] }
  if f.lvl = 0 then .done (whole s) 3 false
  else
    let lo := (c.rd f.ra).toNat
    let len := (c.rd f.rb).toNat
    let first := lo / 64
    let lines := if len = 0 then 0 else (lo + len - 1) / 64 + 1 - first
    let shop := f.lvl = 2
    if shop && 0x800000 ≤ len then .done ((whole s).shopInvalidate (shopOf b) (fun _ => true) |>.stallFree b) 3 false
    else
      let big := 0x8000 < len
      let s' := State.cinvLines b shop (first * 64) (if big && !shop then 0 else lines) s
      let s' := if big then whole s' else s'
      .done (if shop && len ≠ 0 then s'.stallFree b else s') (3 + if big then 0 else lines) false

/-- CINV. -/
def execCinv (b : BenchId) (f : FmtCinv) (s : State) : Host.Outcome State Fault Refusal :=
  let zero := f.lvl == 0 && (f.ra != 0 || f.rb != 0)
  act s (issue b
    { word := f.word 0x3D, illegal := f.lvl == 3 || f.rsv1 != 0 || f.rsv2 != 0 || zero, regs := [f.ra, f.rb] } (cinvBody b f))

end Sys2Proof.Machine
end

