-- ==== Sys2Proof/Machine/Kernel.lean ====
section
/-! DEFINITION. Kernels in their job slots, as the units that end or stop them see them (11 R360-R363). -/

namespace Sys2Proof.Machine

/-! ## Kernels -/

/-- The kernel of slot `n`. -/
def State.kernel (s : State) (n : SlotId) : Kernel := Sp.get (fun _ => ({} : Kernel)) s.kernels n.val

/-- Replaces the kernel of slot `n`. -/
def State.setKernel (s : State) (n : SlotId) (k : Kernel) : State := { s with kernels := Sp.put s.kernels n.val k }

/-- Changes the kernel of slot `n`. -/
def State.updKernel (s : State) (n : SlotId) (f : Kernel → Kernel) : State := s.setKernel n (f (s.kernel n))

/-- Statuses of table 11.7 and table 12.8. -/
def stRefused : Byte := 1
def stAborted : Byte := 2
def stHostAbort : Byte := 3
def stTimeout : Byte := 4
def stSeized : Byte := 5
def stCopyError : Byte := 6
def stFlushed : Byte := 7

/-- A field of word `w` of a descriptor. -/
def wordBits (ws : List W64) (w hi lo : Nat) : Nat := wbits (ws.getD w 0) hi lo

/-- FMN_SLOTn_STAT.STATE. -/
def State.slotState (s : State) (n : SlotId) : Nat := s.fld .fmnSlotStat n.val 31 28

/-- Sets FMN_SLOTn_STAT.STATE. -/
def State.setSlotState (s : State) (n : SlotId) (x : Nat) : State := s.setFld .fmnSlotStat n.val 31 28 x

/-- The hallmark of a job slot. -/
def State.slotHmk (s : State) (n : SlotId) : BitVec 12 := BitVec.ofNat 12 (s.fld .fmnSlotStat n.val 23 12)

/-- Bench `b` is of slot `n`'s kernel. -/
def State.ofSlot (s : State) (n : SlotId) (b : BenchId) : Bool := (s.bench b).slot == some n

/-- The cores of the benches begin nothing further (11 R360, R361). -/
def State.stopCores (s : State) (bs : List BenchId) : State :=
  bs.foldl (fun s b => s.updCore b fun c => { c with stopping := true }) s

/-- The kernel of slot `n` ends at once with a status (11 R361); SEIZED stays (11 R362). A kernel that ends at once already goes
on as it is. -/
def State.killKernel (s : State) (n : SlotId) (status : Byte) (code : BitVec 16) : State :=
  let k := s.kernel n
  match k.phase with
  | .none | .ending true => s
  | _ =>
    let k := { k with phase := .ending true, status := if k.status = stSeized then stSeized else status, code }
    ((s.setKernel n k).setSlotState n 3).stopCores (k.benches.filter (s.ofSlot n))

/-- A refusal of R345 ends the kernel of the issuer's slot, if it has one (11 R361). -/
def State.refuseKernel (s : State) (n : Option SlotId) : State :=
  match n with
  | none => s
  | some n => s.killKernel n stRefused 0

end Sys2Proof.Machine
end

