-- ==== Sys2Proof/Machine/Belfry.lean ====
section
/-! DEFINITION. The belfry: counts, admission, the bell instructions and chimes (11 R342-R351; 14 R439). -/

namespace Sys2Proof.Machine

/-! ## Counts and groups (11 R342, R343, R345) -/

/-- Changes the belfry. -/
def State.updBelfry (s : State) (f : Belfry → Belfry) : State := { s with belfry := f s.belfry }

/-- The count of a bell. -/
def State.bell (s : State) (b : BitVec 16) : W32 := Sp.get (fun _ => 0#32) s.belfry.counts b.toNat

/-- Sets the count of a bell. -/
def State.setBell (s : State) (b : BitVec 16) (v : W32) : State :=
  s.updBelfry fun y => { y with counts := Sp.set (fun _ => 0#32) y.counts b.toNat v }

/-- ADD (11 R347). -/
def State.addBell (s : State) (b : BitVec 16) (v : W32) : State := s.setBell b (s.bell b + v)

/-- A count meets a target (11 R343). -/
def meets (c t : W32) : Bool := decide ((c - t).toNat < 0x80000000)

/-- The entry of the group that holds a bell. -/
def State.group (s : State) (b : BitVec 16) : W32 := Sp.get (fun _ => 0#32) s.belfry.groups (b.toNat / 64)

/-- An operation under hallmark `h` is admitted (11 R345). -/
def State.bellAllows (s : State) (h : BitVec 12) (b : BitVec 16) : Bool :=
  h == 0 || (s.group b).getLsbD 31 || h.toNat == bits (s.group b) 11 0

/-- A refusal is counted, and the first since the last clear is logged. -/
def State.denyBell (s : State) (h : BitVec 12) (b : BitVec 16) : State :=
  let s := s.satAdd .belDenyCnt 0 15 0 1
  if s.fld .belDeny 0 31 31 = 1 then s
  else ((s.setFld .belDeny 0 31 31 1).setFld .belDeny 0 27 16 h.toNat).setFld .belDeny 0 15 0 b.toNat

/-- ADD under a hallmark by a unit whose refused ring is dropped; a refusal ends the kernel of slot `n` (11 R345, R361). -/
def State.ringBell (s : State) (h : BitVec 12) (n : Option SlotId) (b : BitVec 16) (v : W32) : State :=
  if s.bellAllows h b then s.addBell b v else (s.denyBell h b).refuseKernel n

/-! ## Bell instructions (11 R346-R351) -/

/-- A refused bell instruction: Bus error, LOT_DENIED, with the bell number, and the kernel's end. DEDUCED, log 58. DEDUCED, log 59. -/
def bellRefused (b : BenchId) (bell : BitVec 16) (s : State) : Body :=
  .raise ((s.denyBell (s.benchHmk b) bell).refuseKernel (s.bench b).slot) 2
    { code := causeBus, sub := subDenied, addr := bell.setWidth 64 }

/-- An operation on a bell by the core, if the bell's group admits it. -/
def bellBody (b : BenchId) (bell : BitVec 16) (f : State → Body) (s : State) : Body :=
  if s.bellAllows (s.benchHmk b) bell then f s else bellRefused b bell s

/-- The value v of RING and CHIME. -/
def ringValue (rb : W64) (imm : BitVec 9) : W32 := rb.setWidth 32 + imm.setWidth 32

/-- A RING as a command: `g` acts on the count. -/
def ringCmd (b : BenchId) (op : BitVec 2) (f : FmtRing) (g : BitVec 16 → W32 → State → State) (s : State) : State :=
  releasing b { word := f.word 0x38 op, illegal := decide (5 ≤ f.scope.toNat), regs := [f.ra, f.rb] }
    (fun s =>
      let c := (s.bench b).core
      let bell := (c.rd f.ra).setWidth 16
      bellBody b bell (fun s => .done (g bell (ringValue (c.rd f.rb) f.imm) s) 3 false) s) s

/-- ABORT on the completion bell of the bench's kernel ends it; on any other bell it does nothing. -/
def State.ringAbort (s : State) (b : BenchId) (bell : BitVec 16) (v : W32) : State :=
  match (s.bench b).slot with
  | none => s
  | some n =>
    let k := s.kernel n
    if k.phase ≠ .none ∧ wordBits k.words 1 63 48 = bell.toNat then s.killKernel n stAborted (v.setWidth 16) else s

/-- RING_ADD. -/
def execRingAdd (b : BenchId) (f : FmtRing) (s : State) : Host.Outcome State Fault Refusal :=
  act s (ringCmd b 0 f fun bell v s => s.addBell bell v)
/-- RING_SET. -/
def execRingSet (b : BenchId) (f : FmtRing) (s : State) : Host.Outcome State Fault Refusal :=
  act s (ringCmd b 1 f fun bell v s => s.setBell bell v)
/-- RING_ABORT. -/
def execRingAbort (b : BenchId) (f : FmtRing) (s : State) : Host.Outcome State Fault Refusal :=
  act s (ringCmd b 2 f fun bell v s => s.ringAbort b bell v)

/-- The Decode form of a WAIT. -/
def waitForm (f : FmtWait) (async : BitVec 1) : Form :=
  { word := f.word 0x39 async, illegal := decide (5 ≤ f.scope.toNat) || f.rsv1 != 0 || f.rsv2 != 0, regs := [f.ra, f.rb] }

/-- WAIT: completes when the count meets the target, and stalls until then. -/
def execWait (b : BenchId) (f : FmtWait) (s : State) : Host.Outcome State Fault Refusal :=
  act s (issue b (waitForm f 0) fun s =>
    let c := (s.bench b).core
    let bell := (c.rd f.ra).setWidth 16
    let t : W32 := (c.rd f.rb).setWidth 32
    bellBody b bell (fun s =>
      if meets (s.bell bell) t then .done s 3 false else .stall s (.bell bell t (f.word 0x39 0) f.scope none)) s)

/-- WAIT_ASYNC: arms the bench's bell watch. -/
def execWaitAsync (b : BenchId) (f : FmtWait) (s : State) : Host.Outcome State Fault Refusal :=
  act s (issue b (waitForm f 1) fun s =>
    let c := (s.bench b).core
    let bell := (c.rd f.ra).setWidth 16
    bellBody b bell (fun s =>
      .done (s.updBench b fun x => { x with watch := some (bell, (c.rd f.rb).setWidth 32, f.scope) }) 3 false) s)

/-- The target of a PEAL of `n` participants that read `o` (11 R349). -/
def pealTarget (o : W32) (n : Nat) : W32 := BitVec.ofNat 32 ((o.toNat / max 1 n + 1) * max 1 n)

/-- PEAL. -/
def execPeal (b : BenchId) (f : FmtPeal) (s : State) : Host.Outcome State Fault Refusal :=
  act s (releasing b
    { word := f.word 0x3A, illegal := decide (5 ≤ f.scope.toNat) || f.rsv1 != 0 || f.rsv2 != 0, regs := [f.ra, f.rb, f.rd] }
    (fun s =>
      let c := (s.bench b).core
      let bell := (c.rd f.ra).setWidth 16
      bellBody b bell (fun s =>
        let o := s.bell bell
        let t := pealTarget o ((c.rd f.rb).toNat % 65536)
        let s := (s.setBell bell (o + 1)).updCore b fun c => c.wr f.rd (t.setWidth 64)
        if meets (o + 1) t then .done s 4 false else .stall s (.bell bell t (f.word 0x3A) f.scope (some f.rd))) s))

/-- The count of a waiting bench's bell meets its target, and the WAIT or PEAL completes (11 R352). -/
def benchBellWake (b : BenchId) (s : State) : State :=
  match (s.bench b).core.stall with
  | some (.bell bell t _ _ rd) =>
    if !s.coreHeld b && meets (s.bell bell) t then s.resume b (if rd.isSome then 4 else 3) id else s
  | _ => s

/-- BELL_WAKE: a watched count meets its target; the watch disarms and Bell wake becomes pending (11 R348). -/
def execBellWake (b : BenchId) (s : State) : Host.Outcome State Fault Refusal :=
  act s fun s =>
    match (s.bench b).watch with
    | none => s
    | some (bell, t, _) =>
      if meets (s.bell bell) t then
        s.updBench b fun x => { x with watch := none, core := { x.core with pendBell := true } }
      else s

/-- A write to BEL_CNT: SET of the selected bell under hallmark 0. -/
def State.bellCountSet (s : State) (v : W32) : State := s.setBell (BitVec.ofNat 16 (s.fld .belCntSel 0 15 0)) v

/-- BELL_COUNT_SET. -/
def execBellCountSet (v : W32) (s : State) : Host.Outcome State Fault Refusal := act s fun s => s.bellCountSet v

/-! ## Chimes (11 R350; 14 R439) -/

/-- The next number of a chime to a peer, and the number expected from a sender. DESIGN CHOICE, log 63. -/
def State.nextSeq (s : State) (p : PeerId) : W32 := Sp.get (fun _ => 0#32) s.belfry.nextSeq p.toNat
def State.expectSeq (s : State) (p : PeerId) : W32 := Sp.get (fun _ => 0#32) s.belfry.expect p.toNat

/-- Sends a chime, and keeps it until it is acknowledged. -/
def State.sendChime (s : State) (p : PeerId) (h : BitVec 12) (bell : BitVec 16) (v : W32) : State :=
  let seq := s.nextSeq p
  let r := s.belfry.resync.contains p
  (s.updBelfry fun y =>
    { y with
      nextSeq := Sp.put y.nextSeq p.toNat (seq + 1)
      sent := y.sent ++ [{ peer := p, seq, resync := r, hmk := h, bell, v }]
      resync := y.resync.filter (· != p) }).sendTo p 4 (.chime seq r h bell v) []

/-- CHIME (11 R350). -/
def execChime (b : BenchId) (f : FmtChime) (s : State) : Host.Outcome State Fault Refusal :=
  act s (releasing b { word := f.word 0x3B, illegal := f.scope != 4 || f.rsv1 != 0, regs := [f.ra, f.rb] }
    (fun s =>
      let c := (s.bench b).core
      let a := c.rd f.ra
      let bell : BitVec 16 := a.setWidth 16
      let p : PeerId := a.extractLsb' 16 12
      let v := ringValue (c.rd f.rb) f.imm
      if p = s.ownPeer then bellBody b bell (fun s => .done (s.addBell bell v) 3 false) s
      else if !s.reachable p then .raise s 2 { code := causeBus, sub := subLink, addr := a }
      else .stall (s.sendChime p (s.benchHmk b) bell v) (.chime p (s.nextSeq p) (f.word 0x3B) a)))

/-- The bench whose CHIME waits for the acknowledgement of a chime. -/
def State.chimeWaiter (s : State) (p : PeerId) (seq : W32) : Option BenchId :=
  (List.finRange 256).find? fun b =>
    match (s.bench b).core.stall with
    | some (.chime q n _ _) => q = p && n = seq
    | _ => false

/-- The wait of a CHIME ends: it completes, or raises; of a core that stands still, when it goes on. -/
def chimeEnd (b : BenchId) (raise : Option Byte) (s : State) : State :=
  match (s.bench b).core.stall with
  | some (.chime _ _ w a) =>
    if s.coreHeld b then s.later (.chime b raise)
    else
    match raise with
    | none => s.resume b 3 id
    | some sub =>
      let addr := if sub = subDenied then a &&& 0xFFFF#64 else a
      let s := if sub = subDenied then s.refuseKernel (s.bench b).slot else s
      s.resumeRaise b w 2 { code := causeBus, sub, addr }
  | _ => s

/-- CHIME_ACK_TIMEOUT: Bus error, TIMEOUT, with s[RA]; the chime stays with its sender (11 R350). -/
def execChimeAckTimeout (b : BenchId) (s : State) : Host.Outcome State Fault Refusal :=
  act s fun s => if s.coreHeld b then s else chimeEnd b (some subTimeout) s

/-- CHIME_RECEIVE: applied in sequence order under R345; every chime that is not discarded is acknowledged (14 R439). A resynchronising chime
that is sent again has been applied already (R350). DEDUCED, log 153. -/
def State.chimeReceive (s : State) (p : PeerId) (seq : W32) (resync : Bool) (h : BitVec 12) (bell : BitVec 16) (v : W32) : State :=
  let again := Sp.find s.belfry.resynced p.toNat == some seq
  let e := if resync && !again then seq else s.expectSeq p
  if seq = e then
    let ok := s.bellAllows h bell && !(s.group bell).getLsbD 30
    let s := if ok then s.addBell bell v else s.denyBell h bell
    (s.updBelfry fun y =>
      { y with
        expect := Sp.put y.expect p.toNat (e + 1)
        resynced := if resync then Sp.put y.resynced p.toNat seq else y.resynced
        refused := if ok then y.refused else (p, seq) :: y.refused }).sendTo p 5 (.chimeAck seq !ok) []
  else if meets e seq then s.sendTo p 5 (.chimeAck seq (s.belfry.refused.contains (p, seq))) []
  else s

/-- CHIME_RECEIVE. -/
def execChimeReceive (p : PeerId) (seq : W32) (resync : Bool) (h : BitVec 12) (bell : BitVec 16) (v : W32) (s : State) :
    Host.Outcome State Fault Refusal :=
  act s (clocked fun s =>
    (s.unload fun k => k.src == p && k.body == .chime seq resync h bell v).chimeReceive p seq resync h bell v)

end Sys2Proof.Machine
end

