-- ==== Sys2Proof/Machine/Stream.lean ====
section
/-! DEFINITION. Command rings and their streams: entries, halts, completion records and vectors (11 R354; 12 R380-R391, R530). -/

namespace Sys2Proof.Machine

/-! ## Rings -/

/-- Ring `r`. -/
def State.ring (s : State) (r : RingId) : Ring := Sp.get (fun _ => ({} : Ring)) s.rings r.val

/-- Changes ring `r`. -/
def State.updRing (s : State) (r : RingId) (f : Ring → Ring) : State :=
  { s with rings := Sp.put s.rings r.val (f (s.ring r)) }

/-- Owning function and hallmark of a ring (12 CTH_RINGn_CFG). -/
def State.ringFn (s : State) (r : RingId) : Nat := s.fld .cthRingCfg r.val 29 24
def State.ringHmk (s : State) (r : RingId) : BitVec 12 := BitVec.ofNat 12 (s.fld .cthRingCfg r.val 11 0)

/-- The function and the hallmark of a stream: its slot took them from the ring's configuration when it was bound (11 R354). -/
def State.streamFn (s : State) (r : RingId) : Nat := if (s.ring r).slot.isSome then (s.ring r).slotFn.toNat else s.ringFn r
def State.streamHmk (s : State) (r : RingId) : BitVec 12 :=
  match (s.ring r).slot with
  | some n => s.slotHmk n
  | none => s.ringHmk r

/-- A 2^LOG2 code of which values below 4 act as 4. -/
def log2At4 (x : Nat) : Nat := max 4 x

/-- The base addresses that a pair of LO and HI registers gives, for LO bits from `lo` up and 20 HI bits. -/
def State.base52 (s : State) (klo khi : RegKind) (u lo : Nat) : Nat :=
  s.fld khi u 19 0 * 0x100000000 + s.fld klo u 31 lo * 2 ^ lo

/-- CTH_RINGn_CFG.HALTED. -/
def State.ringHalted (s : State) (r : RingId) : Bool := s.fld .cthRingCfg r.val 19 19 == 1

/-- TYPE, CQE and IRQ of an entry (12 table 12.5). -/
def SEntry.type (e : SEntry) : Nat := wordBits e.words 0 63 60
def SEntry.cqe (e : SEntry) : Bool := wordBits e.words 0 59 59 == 1
def SEntry.irq (e : SEntry) : Bool := wordBits e.words 0 58 58 == 1

/-- The entry of slot count `n` in ring `r`. -/
def State.entry (s : State) (r : RingId) (n : W32) : Option SEntry := (s.ring r).entries.find? fun e => e.n = n

/-- Changes the entry of slot count `n`. -/
def State.updEntry (s : State) (r : RingId) (n : W32) (f : SEntry → SEntry) : State :=
  s.updRing r fun g => { g with entries := g.entries.map fun e => if e.n = n then f e else e }

/-! ## Slots (11 R354) -/

/-- The foreman frees the slot of a stream that holds no entry and no kernel and whose slot is not HALTED. -/
def State.releaseSlot (s : State) (r : RingId) : State :=
  match (s.ring r).slot with
  | none => s
  | some n =>
    if (s.ring r).entries.isEmpty && (s.kernel n).phase == .none && s.slotState n != 6 then
      (s.updRing r fun g => { g with slot := none }).setSlotState n 0
    else s

/-- The stream's halt (11 R363; 12 R385, R530). -/
def State.haltStream (s : State) (r : RingId) : State :=
  let s := s.setFld .cthRingCfg r.val 19 19 1
  match (s.ring r).slot with
  | none => s
  | some n => if (s.kernel n).phase = .none then s.setSlotState n 6 else s

/-- The halt of a stream ends: the ring's HALTED and its slot's HALTED are cleared (12 R530). -/
def State.endHalt (s : State) (r : RingId) : State :=
  let s := s.setFld .cthRingCfg r.val 19 19 0
  match (s.ring r).slot with
  | none => s
  | some n => (if s.slotState n = 6 then s.setSlotState n 1 else s).releaseSlot r

/-- RING_RESUME: a write of 1 to CTH_RINGn_CFG.RESUME. -/
def execRingResume (r : RingId) (s : State) : Host.Outcome State Fault Refusal := act s (clocked fun s => s.endHalt r)

/-- The ring whose stream holds slot `n`. -/
def State.slotRing (s : State) (n : SlotId) : Option RingId :=
  (List.finRange 4096).find? fun r => (s.ring r).slot = some n

/-- SLOT_RESUME: a write of 1 to FMN_SLOTn_CTL.RESUME. -/
def State.slotResume (s : State) (n : SlotId) : State :=
  match s.slotRing n with
  | none => s
  | some r => s.endHalt r

/-- SLOT_RESUME. -/
def execSlotResume (n : SlotId) (s : State) : Host.Outcome State Fault Refusal := act s (clocked fun s => s.slotResume n)

/-! ## Vectors (12 R390, R391) -/

/-- Vectors of a function (12 R390). -/
def State.tableSize (s : State) (f : Nat) : Nat :=
  let v := 4 * 2 ^ s.fld .pexFmap 0 25 24
  if f = 0 then 2048 - 63 * v else v

/-- An event raises vector `vec` of function `f`; it joins a message that is already due. -/
def State.raiseVector (s : State) (f vec : Nat) (src : VecSrc) : State :=
  s.updFn f fun x => if x.due.contains (vec, src) then x else { x with due := x.due ++ [(vec, src)] }

/-- A vector's message is sent, or waits in the port, or becomes pending (12 R391, R394). -/
def State.sendVector (s : State) (f : FnId) (vec : Nat) : State :=
  let x := s.fn f.val
  let e := Sp.get (fun _ => ({} : MsixEntry)) x.msix vec
  if e.masked || !x.msixEnable then s.updFn f.val fun x => { x with pba := if x.pba.contains vec then x.pba else vec :: x.pba }
  else if s.linkUp (s.linkOf f.val) then s.emit (.msix f vec e.addr e.data)
  else s.hold (s.linkOf f.val) (.msix f vec)

/-- A vector at or above the Table Size sends nothing, and writes VECTOR_RANGE but for the error ring's own (12 R391). DEDUCED, log 78. -/
def State.vectorRange (s : State) (f : FnId) (src : VecSrc) : State :=
  match src with
  | .ring r => s.record { src := 8, event := 6, fn := BitVec.ofNat 6 f.val, unit_ := BitVec.ofNat 16 r.val }
  | .fault => s.record { src := 6, event := 6, fn := BitVec.ofNat 6 f.val, w2 := 1 }
  | .error => s

/-- MSIX_SEND: the record that a due vector announces has left the port. -/
def State.msixSend (s : State) (f : FnId) (vec : Nat) : State :=
  match (s.fn f.val).due.find? fun d => d.1 = vec with
  | none => s
  | some d =>
    let s := s.updFn f.val fun x => { x with due := x.due.filter (· != d) }
    if s.tableSize f.val ≤ vec then s.vectorRange f d.2 else s.sendVector f vec

/-- MSIX_SEND. -/
def execMsixSend (f : FnId) (vec : BitVec 11) (s : State) : Host.Outcome State Fault Refusal :=
  act s (clocked fun s => s.msixSend f vec.toNat)

/-- MSIX_UNMASK: the host unmasks a vector, and a pending one sends its message. -/
def State.msixUnmask (s : State) (f : FnId) (vec : Nat) : State :=
  let pend := (s.fn f.val).pba.contains vec
  let s := s.updFn f.val fun x =>
    { x with
      msix := Sp.put x.msix vec { Sp.get (fun _ => ({} : MsixEntry)) x.msix vec with masked := false }
      pba := if x.msixEnable then x.pba.filter (· != vec) else x.pba }
  if pend && (s.fn f.val).msixEnable then s.sendVector f vec else s

/-- MSIX_UNMASK. -/
def execMsixUnmask (f : FnId) (vec : BitVec 11) (s : State) : Host.Outcome State Fault Refusal :=
  act s (clocked fun s => if vec.toNat < s.tableSize f.val then s.msixUnmask f vec.toNat else s)

/-! ## Ending an entry (12 R385, R388) -/

/-- The words of a completion record but its PHASE (12 table 12.7). -/
def completionRec (e : SEntry) (status code : Nat) (addr : W64) (epoch : W32) : CRec :=
  { n := e.n
    w0 := BitVec.ofNat 64 (e.type * 2 ^ 56 + status * 2 ^ 48 + code % 65536 * 2 ^ 32 + e.n.toNat)
    w1 := if e.type = 2 then e.words.getD 16 0 else BitVec.ofNat 64 (wordBits e.words 0 31 0)
    w2 := addr
    w3 := epoch.setWidth 64
    irq := e.irq }

/-- A launch that has lost a prerequisite: entry `n` is among the NPRE entries before it. -/
def SEntry.needs (e : SEntry) (n : W32) : Bool :=
  e.type == 1 && n != e.n && decide ((e.n - n).toNat ≤ wordBits e.words 2 55 52)

/-- An entry ends with a status: a record waits to be written when R388 asks for one, and else the entry is completed at once. Any
status but OK and FLUSHED halts the stream; a launch of which it was a prerequisite is refused (11 R355). -/
def State.endEntry (s : State) (r : RingId) (n : W32) (status : Byte) (code : Nat) (addr : W64) : State :=
  match s.entry r n with
  | none => s
  | some e =>
    let needs := e.type = 1 || e.type = 5 || status ≠ 0 || e.cqe
    let s :=
      if needs then
        (s.updEntry r n fun e => { e with st := .ended }).updRing r fun g =>
          { g with recs := g.recs ++ [completionRec e status.toNat code addr 0] }
      else
        let s := s.updRing r fun g => { g with entries := g.entries.filter fun e => e.n != n }
        if e.irq then s.raiseVector (s.ringFn r) (s.fld .cthRingCqcfg r.val 10 0) (.ring r) else s
    let s :=
      if e.type = 2 ∧ status ≠ 0 then
        s.updRing r fun g =>
          { g with
            entries := g.entries.map fun l => if l.needs n then { l with preFailed := true } else l
            lostCopies := n :: g.lostCopies }
      else s
    if status = 0 ∨ status = stFlushed then s.releaseSlot r else s.haltStream r

/-! ## Completion queues (12 R387) -/

/-- PHASE of record `n` in a queue of 2^`log` records. -/
def phaseOf (n : W32) (log : Nat) : Nat := 1 - n.toNat / 2 ^ log % 2

/-- The record at the front of ring `r` is written when the queue has room; its entry is then completed. A
ring that its function's reset has stopped discards it (12 R396). -/
def State.writeCompletion (s : State) (r : RingId) : State :=
  match (s.ring r).recs with
  | [] => s
  | c :: rest =>
    if (s.ring r).mute then
      (s.updRing r fun g => { g with recs := rest, entries := g.entries.filter fun e => e.n != c.n }).releaseSlot r
    else
    let m := s.reg ⟨.cthRingCqtail, r.val, 0⟩
    let log := log2At4 (s.fld .cthRingCqcfg r.val 19 16)
    if (m - (s.ring r).cqHead).toNat = 2 ^ log then s
    else
      let a := s.base52 .cthRingCqLo .cthRingCqHi r.val 8 + 32 * (m.toNat % 2 ^ log)
      let w0 := c.w0 ||| BitVec.ofNat 64 (phaseOf m log * 2 ^ 63)
      let s := s.ownPut (s.ringFn r) a ([w0, c.w1, c.w2, c.w3].flatMap fun w => leBytes 8 w.toNat)
      let s := s.setReg ⟨.cthRingCqtail, r.val, 0⟩ (m + 1)
      let s := s.updRing r fun g => { g with recs := rest, entries := g.entries.filter fun e => e.n != c.n }
      let s := if c.irq then s.raiseVector (s.ringFn r) (s.fld .cthRingCqcfg r.val 10 0) (.ring r) else s
      s.releaseSlot r

/-- COMPLETION_RECORD_WRITE. -/
def execCompletionRecordWrite (r : RingId) (s : State) : Host.Outcome State Fault Refusal :=
  act s (clocked fun s => s.writeCompletion r)

/-- Function `f`'s doorbells act: not before READY (17 R484), nor while it drains or is off (16 R479). -/
def State.doorbellServes (s : State) (f : FnId) : Bool :=
  s.ready && (f.val == 0 || s.fld .pexFnCtl f.val 28 28 == 1 && s.fld .pexFnCtl f.val 30 30 == 0)

/-- A completion-queue head doorbell frees record space. A ring that the function does not own is ignored (12 R379). -/
def State.cqHeadDoorbell (s : State) (f : FnId) (r : RingId) (v : W32) : State :=
  if s.doorbellServes f && s.ringFn r == f.val then s.updRing r fun g => { g with cqHead := v } else s

/-- A tail doorbell records a valid tail, or writes BAD_DOORBELL (12 R380). -/
def State.tailDoorbell (s : State) (f : FnId) (r : RingId) (v : W32) : State :=
  if !(s.doorbellServes f && s.ringFn r == f.val) then s
  else if (v - s.reg ⟨.cthRingFetch, r.val, 0⟩).toNat ≤ 2 ^ log2At4 (s.fld .cthRingCfg r.val 23 20) then
    s.updRing r fun g => { g with tail := v }
  else s.record { src := 8, event := 5, fn := BitVec.ofNat 6 f.val, unit_ := BitVec.ofNat 16 r.val }

end Sys2Proof.Machine
end

