-- ==== Sys2Proof/Machine/Carter.lean ====
section
/-! DEFINITION. Carters: their registers, rings, descriptor checks and elements (10 R309-R326, R341, R529), and hoppers (10
R330-R339). -/

namespace Sys2Proof.Machine

/-! ## Carters (10 R309, R311) -/

/-- The number of a carter: bench carters 0 to 511, then shop carters, then link carters. -/
def carterNum : CarterId → Nat
  | .bench c => c.val
  | .shop c => 512 + c.val
  | .link c => 544 + c.val

/-- Carter `c`. -/
def State.carter (s : State) (c : CarterId) : Carter := Sp.get (fun _ => ({} : Carter)) s.carters (carterNum c)

/-- Changes carter `c`. -/
def State.updCarter (s : State) (c : CarterId) (f : Carter → Carter) : State :=
  { s with carters := Sp.put s.carters (carterNum c) (f (s.carter c)) }

/-- The registers of a carter (10): RING_LO, RING_HI, RING_CFG, STATUS and CTL, in that order. -/
def carterReg (c : CarterId) (i : Nat) : Reg :=
  match c with
  | .bench c => ⟨[RegKind.crtBRingLo, .crtBRingHi, .crtBRingCfg, .crtBStatus].getD i .crtBCtl, c.val, 0⟩
  | .shop c => ⟨[RegKind.crtSRingLo, .crtSRingHi, .crtSRingCfg, .crtSStatus].getD i .crtSCtl, c.val, 0⟩
  | .link c => ⟨[RegKind.crtLRingLo, .crtLRingHi, .crtLRingCfg, .crtLStatus].getD i .crtLCtl, c.val, 0⟩

/-- Field [hi:lo] of register `i` of a carter. -/
def State.carterFld (s : State) (c : CarterId) (i hi lo : Nat) : Nat := bits (s.reg (carterReg c i)) hi lo

/-- Stores a field of a carter's register. -/
def State.setCarterFld (s : State) (c : CarterId) (i hi lo x : Nat) : State :=
  s.setReg (carterReg c i) (setBits (s.reg (carterReg c i)) hi lo x)

/-- The carter is in service: ON and not DRAINING. -/
def State.carterOn (s : State) (c : CarterId) : Bool := s.carterFld c 3 29 29 == 1 && s.carterFld c 3 31 31 == 0

/-- The bench of a bench carter. -/
def carterBench : CarterId → Option BenchId
  | .bench c => some ⟨c.val / 2, by omega⟩
  | _ => none

/-- The job slot of a carter's local ring: its bench's, or that to which it is bound (10 R311). -/
def State.carterSlot (s : State) (c : CarterId) : Option SlotId :=
  match carterBench c with
  | some b => (s.bench b).slot
  | none => (s.carter c).slot

/-- The hallmark of a carter's local ring. -/
def State.localHmk (s : State) (c : CarterId) : BitVec 12 :=
  match s.carterSlot c with
  | some n => s.slotHmk n
  | none => 0

/-- Slots of a local ring (10 CRT_RING_CFG.LOG2N). -/
def ringLog (x : Nat) : Nat := min 12 (max 4 x)

/-- The base of the local ring. -/
def State.carterBase (s : State) (c : CarterId) : Nat := s.carterFld c 1 19 0 * 0x100000000 + s.carterFld c 0 31 7 * 128

/-- The 64-bit words of bytes. -/
def wordsOf (n : Nat) (d : List Byte) : List W64 :=
  (List.range n).map fun k => BitVec.ofNat 64 (leVal ((d.drop (8 * k)).take 8))

/-- Runs of a feed: the local ring's, or the foreman feed's. -/
def Carter.runs (x : Carter) (loc : Bool) : List Run := if loc then x.loc else x.fore

/-- Changes the runs of a feed. -/
def State.updRuns (s : State) (c : CarterId) (loc : Bool) (f : List Run → List Run) : State :=
  s.updCarter c fun x => if loc then { x with loc := f x.loc } else { x with fore := f x.fore }

/-- A run of the local ring. -/
def Run.loc (r : Run) : Bool :=
  match r.src with
  | .ring _ => true
  | _ => false

/-- What marks the requests of run number `id` of a feed among its carter's: odd for the local ring. The local ring's own memory is accessed
under the mark 1. -/
def runMark (loc : Bool) (id : Nat) : Nat := 2 * id + if loc then 1 else 0

/-- The request of a run's next element, whose address is `a`. -/
def Run.asker (r : Run) (c : CarterId) (a : W64) : Asker :=
  { eng := .carter c, run := runMark r.loc r.id, n := r.next, el := (a.setWidth 52).setWidth 64 }

/-- A request of carter `c` whose mark satisfies `p`. -/
def Asker.ofCarter (w : Asker) (c : CarterId) (p : Nat → Bool) : Bool := w.eng == .carter c && p w.run

/-- Requests that satisfy `p` are in flight: they have not been answered. -/
def State.inFlight (s : State) (p : Asker → Bool) : Bool :=
  (s.xlat.flights.any fun f => p f.who) || (s.held.any fun h => h.reply?.any fun r => p r.flight.who)
    || (s.mem.acks.any fun f => p f.who) || s.portWaits fun f => p f.who

/-- No request of the run is in flight. -/
def State.runQuiet (s : State) (c : CarterId) (r : Run) : Bool := !s.inFlight fun w => w.ofCarter c (· == runMark r.loc r.id)

/-- Requests of the local ring are in flight. -/
def State.localBusy (s : State) (c : CarterId) : Bool := s.inFlight fun w => w.ofCarter c (· % 2 == 1)

/-- No request of the carter is in flight. -/
def State.carterQuiet (s : State) (c : CarterId) : Bool := !s.inFlight fun w => w.ofCarter c fun _ => true

/-- The run that a feed works on: the oldest that has not issued its last request (10 R323). -/
def State.curRun (s : State) (c : CarterId) (loc : Bool) : Option Run :=
  ((s.carter c).runs loc).find? fun r => r.st ≠ .issued

/-- Replaces the current run. -/
def replaceCur (r : Run) : List Run → List Run
  | [] => []
  | x :: rest => if x.st = .issued then x :: replaceCur r rest else r :: rest

/-- Stores the current run. -/
def State.setRun (s : State) (c : CarterId) (loc : Bool) (r : Run) : State := s.updRuns c loc (replaceCur r)

/-! ## Descriptors (10 R314-R319) -/

/-- Fields of a descriptor by their places in words 0 and 3. -/
def dType (w : List W64) : Nat := wordBits w 0 63 60
def dNdim (w : List W64) : Nat := wordBits w 0 59 57
def dLes (w : List W64) : Nat := wordBits w 0 56 54
def dSk (w : List W64) : Nat := wordBits w 3 63 60
def dDk (w : List W64) : Nat := wordBits w 3 59 56
def dLb (w : List W64) : Bool := wordBits w 3 18 18 == 1

/-- Bytes of an element. -/
def dSize (w : List W64) : Nat := 2 ^ dLes w

/-- CNT, SSTR and DSTR of dimension `d`. -/
def dCnt (w : List W64) (d : Nat) : Nat := wordBits w (5 + 2 * d) 23 0
def dSstr (w : List W64) (d : Nat) : Int := (BitVec.ofNat 40 (wordBits w (5 + 2 * d) 63 24)).toInt
def dDstr (w : List W64) (d : Nat) : Int := (BitVec.ofNat 40 (wordBits w (6 + 2 * d) 63 24)).toInt

/-- Number of elements (10 R315). -/
def dCount (w : List W64) : Nat := (List.range (dNdim w)).foldl (fun e d => e * dCnt w d) 1

/-- Coordinates of element `n`, applied to strides. -/
def dOffset (w : List W64) (str : Nat → Int) : Nat → Nat → Nat → Int
  | 0, _, _ => 0
  | k + 1, d, n => if dCnt w d = 0 then 0 else (n % dCnt w d : Int) * str d + dOffset w str k (d + 1) (n / dCnt w d)

/-- The strided address of element `n` from `base` (10 R315). -/
def dAddr (w : List W64) (base : W64) (str : Nat → Int) (n : Nat) : W64 :=
  base + BitVec.ofInt 64 (dOffset w str (dNdim w) 0 n)

/-- Words 1 to 14 are 0 but for SH. -/
def dOnlySh (w : List W64) : Bool :=
  w.getD 1 0 == 0 && w.getD 2 0 == 0 && (w.getD 3 0) &&& ~~~(0x3FF#64 <<< 30) == 0
    && (List.range 10).all fun k => w.getD (5 + k) 0 == 0

/-- Dimension words: reserved bits and the words of unused dimensions; `s` and `d` say whether the strides are used. -/
def dDims (w : List W64) (s d : Bool) : Bool :=
  (List.range 5).all fun k =>
    if k < dNdim w then
      wordBits w (6 + 2 * k) 23 0 == 0 && (s || wordBits w (5 + 2 * k) 63 24 == 0) && (d || wordBits w (6 + 2 * k) 63 24 == 0)
    else w.getD (5 + 2 * k) 0 == 0 && w.getD (6 + 2 * k) 0 == 0

/-- Fields of a MOVE, GATHER, SCATTER or FILL that its type and kinds do not use are 0, and its kinds are assigned. -/
def dFields (w : List W64) : Bool :=
  let t := dType w
  let sk := dSk w
  let dk := dDk w
  let near (k : Nat) : Bool := decide (1 ≤ k) && decide (k ≤ 4)
  let src := t != 3 && sk != 5
  let dst := dk != 5
  (if t = 3 then sk == 0 else decide (sk ≤ 5) && sk != 2) && decide (dk ≤ 5)
    && (dk != 2 || dLes w == 3) && (t != 1 || sk != 5) && (t != 2 || dk != 5)
    && (src || w.getD 1 0 == 0) && (dst || w.getD 2 0 == 0)
    && dDims w (src && t != 1) (dst && t != 2)
    && (near sk || wordBits w 3 55 48 == 0) && (near dk || wordBits w 3 47 40 == 0)
    && (sk == 5 || wordBits w 3 39 30 == 0) && (dk == 5 || wordBits w 3 29 20 == 0 && wordBits w 3 19 19 == 0)
    && (t == 1 || t == 2 || wordBits w 3 17 16 == 0) && wordBits w 3 15 0 == 0
    && (t != 0 || dLb w || w.getD 4 0 == 0)
    && ((sk != 5 && dk != 5) || dCount w * dSize w % 64 == 0)

/-- The descriptor passes the checks of R319 whose failure is DESC. `bench`: a bench carter runs it; `local_`: from a local ring. -/
def dWellFormed (w : List W64) (bench local_ : Bool) : Bool :=
  let t := dType w
  decide (1 ≤ dNdim w) && decide (dNdim w ≤ 5) && dLes w != 7 && wordBits w 0 51 48 == 0 && wordBits w 0 15 0 == 0
    && !(local_ && dLb w)
    && match t with
      | 0 | 1 | 2 | 3 => dFields w && (bench || (t != 1 && t != 2) || wordBits w 3 16 16 == 1)
      | 4 => dOnlySh w && decide (wordBits w 4 63 60 < 4) && wordBits w 4 59 0 == 0
      | 15 => dOnlySh w && wordBits w 3 39 30 == 0 && w.getD 4 0 == 0
      | _ => false

/-- R317: the kinds 1 to 4 that a carter may name. -/
def dEndpoints (c : CarterId) (loc : Bool) (w : List W64) : Bool :=
  let ok (k b : Nat) : Bool :=
    if k = 0 ∨ 5 ≤ k then true
    else
      match c with
      | .bench c => b == c.val / 2
      | .shop c => !loc && b / 16 == c.val / 2
      | .link _ => false
  dType w == 4 || dType w == 15 || (ok (dSk w) (wordBits w 3 55 48) && ok (dDk w) (wordBits w 3 47 40))

/-- R319: the addresses and strides used are multiples of the element size, and the list's of its entry size. -/
def dAligned (w : List W64) : Bool :=
  let t := dType w
  let n := dSize w
  let src := t != 3 && dSk w != 5
  let dst := dDk w != 5
  let dims (f : Nat → Int) : Bool := (List.range (dNdim w)).all fun d => f d % n == 0
  t == 4 || t == 15 ||
    ((!src || (w.getD 1 0).toNat % n == 0) && (!dst || (w.getD 2 0).toNat % n == 0)
      && (!(src && t != 1) || dims (dSstr w)) && (!(dst && t != 2) || dims (dDstr w))
      && ((t != 1 && t != 2) || (w.getD 4 0).toNat % (if wordBits w 3 17 17 = 1 then 8 else 4) == 0))

/-- Carter codes (10 table 10.6). -/
def ceDesc : Byte := 1
def ceEndpoint : Byte := 2
def ceAlign : Byte := 3
def ceGuard : Byte := 4
def ceTransl : Byte := 5
def ceHopDenied : Byte := 0xA
def ceHopOff : Byte := 0xB
def ceOff : Byte := 0xC

/-- The carter code of a Bus error subcause: POISON 6, LOT_DENIED 7, LINK 8, TIMEOUT 9. -/
def busCode (sub : Byte) : Byte := sub + 5

/-- How a descriptor starts: it runs, or has failed a check (10 R319). -/
def State.startState (s : State) (c : CarterId) (loc : Bool) (w : List W64) : State × RunSt :=
  let fail (code : Byte) : State × RunSt := (s.drawn, .failed code 0 ((Config.descAddr s.draws).setWidth 64))
  if !dWellFormed w (carterBench c).isSome loc then fail ceDesc
  else if !dEndpoints c loc w then fail ceEndpoint
  else if !dAligned w then fail ceAlign
  else (s, .running)

/-- A new run of a feed, which takes the next number. -/
def State.addRun (s : State) (c : CarterId) (src : RunOf) (words : List W64) (hmk : BitVec 12) (st : RunSt) : State :=
  s.updCarter c fun x =>
    let r : Run := { id := x.serial + 1, src, words, hmk, st }
    let x := { x with serial := x.serial + 1 }
    if r.loc then { x with loc := x.loc ++ [r] } else { x with fore := x.fore ++ [r] }

/-! ## Elements (10 R315-R322) -/

/-- How an element, or part of one, ends: with data, or in the state in which its run then stands. -/
inductive ElOut where
  | ok (data : List Byte)
  | stop (st : RunSt)
  deriving DecidableEq, Repr

/-- Bits [51:0] of an address, as ADDR reports it. -/
def addr52 (a : W64) : W64 := (a.setWidth 52).setWidth 64

/-- An element ends with an error at address `a`. -/
def ElOut.fail (code sub : Byte) (a : W64) : ElOut := .stop (.failed code sub (addr52 a))

/-- Bench `n`, if there is one. -/
def benchOf (n : Nat) : BenchId := ⟨n % 256, by omega⟩

/-- Reads `len` bytes of an endpoint of kind `k` on bench `b` (10 table 10.5), as the request `who` under hallmark `h`. -/
def State.endRead (s : State) (who : Asker) (h : BitVec 12) (k b : Nat) (a : W64) (len : Nat) : State × ElOut :=
  let x := s.bench (benchOf b)
  match k with
  | 0 =>
    match s.dvaRead who h a len with
    | (s, .ok d) => (s, .ok d)
    | (s, .wait w) => (s, .stop (.wait w (addr52 a)))
    | (s, .fault sub) => (s, .fail ceTransl sub a)
    | (s, .bad sub) => (s, .fail (busCode sub) 0 a)
  | 1 =>
    let o := a.toNat % 0x200000
    if s.guardedAll (benchOf b) o len then (s, .fail ceGuard 0 a)
    else if x.storePoisoned o len then (s, .fail (busCode subPoison) 0 a)
    else (s, .ok (x.readStore o len))
  | _ =>
    if 0x20000 < a.toNat + len then (s, .fail ceEndpoint 0 a)
    else (s, .ok (x.forge.plates.bytes id ((k - 3) * 0x20000 + a.toNat) len))

/-- Writes bytes to an endpoint. A program-store word below FMN_FWEND admits hallmark 0 only (17 R496). -/
def State.endWrite (s : State) (who : Asker) (h : BitVec 12) (k b : Nat) (a : W64) (data : List Byte) : State × ElOut :=
  match k with
  | 0 =>
    match s.dvaWrite who h a data with
    | (s, .ok) => (s, .ok [])
    | (s, .wait w) => (s, .stop (.wait w (addr52 a)))
    | (s, .fault sub) => (s, .fail ceTransl sub a)
    | (s, .bad sub) => (s, .fail (busCode sub) 0 a)
  | 1 =>
    let o := a.toNat % 0x200000
    if s.guardedAll (benchOf b) o data.length then (s, .fail ceGuard 0 a)
    else (s.updBench (benchOf b) fun x => x.writeStore o data, .ok [])
  | 2 =>
    let i := a.toNat / 8 % 65536
    if i < s.fld .fmnFwend 0 15 0 ∧ h ≠ 0 then (s, .fail ceEndpoint 0 a)
    else (s.updBench (benchOf b) fun x => x.psWrite (BitVec.ofNat 16 i) (BitVec.ofNat 36 (leVal data)), .ok [])
  | _ =>
    if 0x20000 < a.toNat + data.length then (s, .fail ceEndpoint 0 a)
    else
      (s.updForge (benchOf b) fun f => { f with plates := f.plates.setBytes id ((k - 3) * 0x20000 + a.toNat) data }, .ok [])

/-- The place of a byte as an overlap sees it: this device's memory, a bench store or a plate (10 R322). -/
def State.placeOf (s : State) (c : CarterId) (h : BitVec 12) (k b : Nat) (a : W64) : Option Nat :=
  let store (b o : Nat) : Nat := 0x1000000000000 + b * 0x200000 + o % 0x200000
  match k with
  | 0 =>
    match (s.translate (.carter c) h a .read false).2 with
    | .ok g =>
      match g.target with
      | .dpa d =>
        match windowOf d with
        | some (b, o) => some (store b.val o)
        | none => some d
      | _ => none
    | _ => none
  | 1 => some (store b a.toNat)
  | 3 | 4 => some (0x2000000000000 + b * 0x40000 + (k - 3) * 0x20000 + a.toNat)
  | _ => none

/-- The bytes at a place. -/
def State.placeByte (s : State) (p : Nat) : Byte :=
  if p < 0x1000000000000 then s.mem.dram.byte p
  else if p < 0x2000000000000 then (s.bench (benchOf ((p - 0x1000000000000) / 0x200000))).store.byte (p % 0x200000)
  else (s.bench (benchOf ((p - 0x2000000000000) / 0x40000))).forge.plates.byte (p % 0x40000)

/-- Each aligned 8-byte unit that an element reads where this descriptor has written is its old or its new contents. -/
def mixOld (undo : Sparse Byte) (p : Nat) (d : List Byte) (draws : Nat) : List Byte :=
  d.zipIdx.map fun v =>
    match Sp.find undo (p + v.2) with
    | some o => if Config.oldOrNew (draws + (p + v.2) / 8 - p / 8) then o else v.1
    | none => v.1

/-- Remembers the bytes that a write is about to replace. -/
def saveOld (s : State) (p len : Nat) (undo : Sparse Byte) : Sparse Byte :=
  (List.range len).foldl
    (fun u j => match Sp.find u (p + j) with | some _ => u | none => Sp.put u (p + j) (s.placeByte (p + j))) undo

/-- The source and destination may lie in the same storage. -/
def mayOverlap (w : List W64) : Bool :=
  dType w != 3 && ((decide (dSk w ≤ 1) && decide (dDk w ≤ 1)) || (dSk w == dDk w && dSk w != 5))

/-- The source and destination benches. -/
def dSb (w : List W64) : Nat := wordBits w 3 55 48
def dDb (w : List W64) : Nat := wordBits w 3 47 40

/-- The number of a carter's own bench. -/
def ownBench (c : CarterId) : Nat := match carterBench c with | some b => b.val | none => 0

/-- The sign-extended value of an index entry. -/
def indexOf (d : List Byte) : W64 := if d.length = 8 then BitVec.ofNat 64 (leVal d) else (BitVec.ofNat 32 (leVal d)).signExtend 64

/-- The list entry of the run's next element, unless it has been read already: idx[n], sign-extended (10 R316). -/
def State.listEntry (s : State) (c : CarterId) (r : Run) : State × ElOut × Run :=
  let w := r.words
  if (dType w ≠ 1 ∧ dType w ≠ 2) ∨ r.idx.isSome then (s, .ok [], r)
  else
    let size := if wordBits w 3 17 17 = 1 then 8 else 4
    let a := w.getD 4 0 + BitVec.ofNat 64 (r.next * size)
    match s.endRead (r.asker c a) r.hmk (if wordBits w 3 16 16 = 1 then 0 else 1) (ownBench c) a size with
    | (s, .ok d) => (s, .ok [], { r with idx := some (indexOf d) })
    | (s, o) => (s, o, r)

/-- The index of the next element. -/
def Run.index (r : Run) : W64 := r.idx.getD 0

/-- The source address shift of a launch copy's part (10 R318). -/
def partShift (r : Run) : W64 :=
  match r.src with
  | .part _ _ k => if dType r.words = 0 then BitVec.ofNat 64 k * r.words.getD 4 0 else 0
  | _ => 0

/-- The bytes of a FILL's element: the low bytes of AUX, or AUX repeated (10 R316). -/
def fillBytes (w : List W64) : List Byte :=
  ((leBytes 8 (w.getD 4 0).toNat).take (dSize w) ++ (List.replicate 8 (leBytes 8 (w.getD 4 0).toNat)).flatten).take (dSize w)

/-- Hopper `h`. -/
def State.hopper (s : State) (h : HopperId) : Hopper := Sp.get (fun _ => ({} : Hopper)) s.hoppers h.val

/-- Changes hopper `h`. -/
def State.updHopper (s : State) (h : HopperId) (f : Hopper → Hopper) : State :=
  { s with hoppers := Sp.put s.hoppers h.val (f (s.hopper h)) }

/-- The hopper that a descriptor's field names. -/
def hopperOf (n : Nat) : HopperId := ⟨n % 1024, by omega⟩

/-- CAP (10 R330). -/
def State.hopCap (s : State) (h : HopperId) : Nat := 2 ^ min 24 (max 5 (s.fld .hopCfg h.val 24 20))

/-- Where unit `u` stands in the buffers and in the spill region, in units. -/
def State.hopSlot (s : State) (h : HopperId) (u : W64) : Nat := u.toNat % s.hopCap h

/-- The DPA of a slot of the spill region (10 HOP_SPILL). -/
def State.spillDpa (s : State) (h : HopperId) (k : Nat) : Nat :=
  s.fld .hopSpillHi h.val 15 0 * 0x100000000 + s.fld .hopSpillLo h.val 31 12 * 0x1000 + 64 * k

/-- Spill requests carry hallmark 0 and the guarded class (10 R340). -/
def spiller : Requester := { hmk := 0, smask := 0, shop := none }

/-- Reads `len` bytes at offset `off` of unit `u` of a hopper: from a buffer, or from the spill region where it has spilled. -/
def State.unitBytes (s : State) (h : HopperId) (u : W64) (off len : Nat) : State × ElOut :=
  let x := s.hopper h
  let k := s.hopSlot h u
  if x.spilled.contains k then
    match s.dpaRead spiller (s.spillDpa h k + off) len false with
    | (s, .ok d) => (s, .ok d)
    | (s, .bad sub) => (s, .stop (.failed (busCode sub) 0 (BitVec.ofNat 64 h.val)))
  else (s, .ok (x.data.bytes id (64 * k + off) len))

/-- The data of the next element from its source. -/
def State.elemRead (s : State) (c : CarterId) (r : Run) : State × ElOut :=
  let w := r.words
  let len := dSize w
  let a := if dType w = 1 then w.getD 1 0 + r.index else dAddr w (w.getD 1 0 + partShift r) (dSstr w) r.next
  if dType w = 3 then (s, .ok (fillBytes w))
  else if dSk w = 5 then
    s.unitBytes (hopperOf (wordBits w 3 39 30)) (r.claim.getD 0 + BitVec.ofNat 64 (r.next * len / 64)) (r.next * len % 64) len
  else if a.toNat % len ≠ 0 then (s, .fail ceAlign 0 a)
  else
    match s.endRead (r.asker c a) r.hmk (dSk w) (dSb w) a len with
    | (s, .ok d) =>
      if r.undo.isEmpty then (s, .ok d)
      else
        match s.placeOf c r.hmk (dSk w) (dSb w) a with
        | some p => ({ s with draws := s.draws + len / 8 + 1 }, .ok (mixOld r.undo p d s.draws))
        | none => (s, .ok d)
    | o => o

/-- Reads the next element, which joins the bytes that the run has read. -/
def State.elemGet (s : State) (c : CarterId) (r : Run) : State × ElOut × Run :=
  match s.listEntry c r with
  | (s, .ok _, r) =>
    match s.elemRead c r with
    | (s, .ok d) => (s, .ok [], { r with got := r.got ++ d })
    | (s, o) => (s, o, r)
  | x => x

/-- The destination address of the next element. -/
def elemDst (r : Run) : W64 :=
  let w := r.words
  if dType w = 2 then w.getD 2 0 + r.index else dAddr w (w.getD 2 0) (dDstr w) r.next

/-- Writes the element that the run has read, remembering what it replaces. -/
def State.elemPut (s : State) (c : CarterId) (r : Run) : State × ElOut × Run :=
  let w := r.words
  let a := elemDst r
  if a.toNat % dSize w ≠ 0 then (s, .fail ceAlign 0 a, r)
  else
    match s.endWrite (r.asker c a) r.hmk (dDk w) (dDb w) a r.got with
    | (t, .ok _) =>
      let undo :=
        if !mayOverlap w then r.undo
        else match s.placeOf c r.hmk (dDk w) (dDb w) a with | some p => saveOld s p r.got.length r.undo | none => r.undo
      (t, .ok [], { r with next := r.next + 1, idx := none, got := [], undo, st := .running })
    | (t, o) => (t, o, r)

/-- One element of a run whose destination is no hopper: read, unless that is done, then written (10 R322). -/
def State.element (s : State) (c : CarterId) (r : Run) : State × ElOut × Run :=
  if r.got.isEmpty then
    match s.elemGet c r with
    | (s, .ok _, r) => s.elemPut c r
    | x => x
  else s.elemPut c r

/-- Elements above the failing one that may have been performed: a free choice for each (10 R324). -/
def elementsAbove (c : CarterId) (r : Run) : Nat → Nat → State → State
  | _, 0, s => s
  | n, k + 1, s =>
    let s' :=
      if Config.elementsAbove s.draws then
        match s.drawn.element c { r with next := n, idx := none, got := [] } with
        | (s', .ok _, _) => s'
        | _ => s.drawn
      else s.drawn
    elementsAbove c r (n + 1) k s'

/-- How a run stands that has moved elements up to its next one. -/
def Run.moved (r : Run) : Run := { r with st := if dCount r.words ≤ r.next then .issued else .running }

/-- At most `k` elements of the run, until one waits or fails. -/
def runElements (c : CarterId) : Nat → Run → State → State × Run
  | 0, r, s => (s, r.moved)
  | k + 1, r, s =>
    match s.element c r with
    | (s, .ok _, r) => runElements c k r s
    | (s, .stop st, r) =>
      match st with
      | .failed .. => (elementsAbove c r (r.next + 1) (dCount r.words - r.next - 1) s, { r with st })
      | _ => (s, { r with st })

/-! ## Hoppers (10 R330-R339) -/

/-- The hopper serves: ON and not DRAINING. -/
def State.hopOn (s : State) (h : HopperId) : Bool := s.fld .hopStatus h.val 29 29 == 1 && s.fld .hopStatus h.val 31 31 == 0

/-- An operation's code when the hopper refuses it (10 R339, R341), before it waits. -/
def State.hopRefuses (s : State) (h : HopperId) (hmk : BitVec 12) : Option Byte :=
  if !s.hopOn h then some ceHopOff
  else if hmk = 0 ∨ hmk.toNat = s.fld .hopOwn h.val 11 0 then none
  else some ceHopDenied

/-- A refusal of the hopper as the end of a run: ADDR is the hopper's number. -/
def hopFail (code : Byte) (h : HopperId) : RunSt := .failed code 0 (BitVec.ofNat 64 h.val)

/-- Units put and not freed; visible units that no take has claimed; units of the open packet. -/
def Hopper.fill (x : Hopper) : Nat := (x.wr - x.rel).toNat
def Hopper.ready (x : Hopper) : Nat := (x.vis - x.rd).toNat
def Hopper.packet (x : Hopper) : Nat := (x.wr - x.vis).toNat

/-- Closes the open packet: VIS = WR, and a notice is due with NTC (10 R332, R337). -/
def State.closePacket (s : State) (h : HopperId) : State :=
  let x := s.hopper h
  if x.open_.isNone then s
  else s.updHopper h fun x =>
    { x with vis := x.wr, open_ := none, notices := if s.fld .hopCfg h.val 28 28 = 1 then x.notices ++ [x.packet] else x.notices }

/-- The unit that leaves the tail buffer when 16 newer ones have been put spills, unless it is among the 16 oldest, which the head buffer
holds (10 R330, R340). DESIGN CHOICE, log 148. -/
def State.spillUnit (s : State) (h : HopperId) : State :=
  let x := s.hopper h
  if x.fill ≤ 32 then s
  else
    let k := s.hopSlot h (x.wr - 17)
    let s := s.updHopper h fun x => { x with data := Sp.eraseRange x.data (64 * k) (64 * k + 64), spilled := x.spilled ++ [k] }
    let a := s.spillDpa h k
    let t := (s.dpaWrite spiller a (x.data.bytes id (64 * k) 64) false).1
    match s.sleeps a with
    | some c => t.holdAt c .write
    | none => t

/-- Appends a unit to the open packet, and closes it at its limit or at a full hopper (10 R332). -/
def State.appendUnit (s : State) (h : HopperId) (ring : CarterId × Bool) (d : List Byte) : State :=
  let s := s.updHopper h fun x =>
    { x with data := x.data.setBytes id (64 * s.hopSlot h x.wr) d, wr := x.wr + 1, open_ := some ring }
  let s := s.spillUnit h
  let x := s.hopper h
  if x.packet = s.fld .hopCfg h.val 19 8 + 1 ∨ x.fill = s.hopCap h then s.closePacket h else s

/-- Elements that make up a unit. -/
def unitElems (w : List W64) : Nat := 64 / dSize w

/-- Reads the elements of a unit that are not read yet, at most `k` of them. -/
def unitRead (c : CarterId) : Nat → Run → State → State × ElOut × Run
  | 0, r, s => (s, .ok r.got, r)
  | k + 1, r, s =>
    if 64 ≤ r.got.length then (s, .ok r.got, r)
    else
      match s.elemGet c { r with next := r.next + r.got.length / dSize r.words } with
      | (s, .ok _, q) => unitRead c k { r with got := q.got } s
      | (s, .stop (.failed code sub a), q) => (s, .stop (.failed code sub a), q)
      | (s, o, q) => (s, o, { r with idx := q.idx })

/-- A ring joins those whose operations wait on a hopper, or leaves them. -/
def joinRing (l : List (CarterId × Bool)) (ring : CarterId × Bool) : List (CarterId × Bool) := if l.contains ring then l else l ++ [ring]
def leaveRing (l : List (CarterId × Bool)) (ring : CarterId × Bool) : List (CarterId × Bool) := l.filter (· != ring)

/-- The end of a put: with CLOSE it closes its packet (10 R332). -/
def State.putEnd (s : State) (h : HopperId) (ring : CarterId × Bool) (r : Run) : State :=
  let s := s.updHopper h fun x => { x with putters := leaveRing x.putters ring }
  if wordBits r.words 3 19 19 = 1 ∧ (s.hopper h).open_ = some ring then s.closePacket h else s

/-- A put of `ring` may append a unit: the open packet is its own, or none is open and no put that was received earlier waits; and there is
room (10 R332, R334). -/
def State.mayPut (s : State) (h : HopperId) (ring : CarterId × Bool) : Bool :=
  let x := s.hopper h
  (match x.open_ with | some o => o == ring | none => x.putters.head? == some ring) && x.fill != s.hopCap h

/-- One unit of a put, when it may append one. DEDUCED, log 55. -/
def putUnit (c : CarterId) (loc : Bool) (r : Run) (s : State) : State × Run :=
  let h := hopperOf (wordBits r.words 3 29 20)
  if dCount r.words ≤ r.next then (s.putEnd h (c, loc) r, { r with st := .issued })
  else
    match (if r.next = 0 ∨ r.st = .hop then s.hopRefuses h r.hmk else none) with
    | some code => (s.updHopper h fun x => { x with putters := leaveRing x.putters (c, loc) }, { r with st := hopFail code h })
    | none =>
      let s := s.updHopper h fun x => { x with putters := joinRing x.putters (c, loc) }
      if !s.mayPut h (c, loc) then (s, { r with st := if s.hopOn h then .hop else hopFail ceHopOff h })
      else
        match unitRead c (unitElems r.words) r s with
        | (s, .ok d, r) =>
          let s := s.appendUnit h (c, loc) d
          let r := { r with next := r.next + unitElems r.words, idx := none, got := [], st := .running }
          if dCount r.words ≤ r.next then (s.putEnd h (c, loc) r, { r with st := .issued }) else (s, r)
        | (s, .stop st, r) =>
          match st with
          | .failed .. => (s.updHopper h fun x => { x with putters := leaveRing x.putters (c, loc) }, { r with st })
          | _ => (s, { r with st })

/-- Units of a put, at most `k`, until it waits, fails or ends. -/
def putUnits (c : CarterId) (loc : Bool) : Nat → Run → State → State × Run
  | 0, r, s => (s, r)
  | k + 1, r, s =>
    match putUnit c loc r s with
    | (s, r) => if r.st = .running then putUnits c loc k r s else (s, r)

/-- Units that a take moves. -/
def takeUnits (w : List W64) : Nat := dCount w * dSize w / 64

/-- A take claims its units when no take or HOPCTL that was received earlier waits and enough are visible (10 R333, R334). -/
def takeClaim (c : CarterId) (loc : Bool) (r : Run) (s : State) : State × Run :=
  let h := hopperOf (wordBits r.words 3 39 30)
  if r.claim.isSome then (s, r)
  else
    match s.hopRefuses h r.hmk with
    | some code => (s.updHopper h fun x => { x with takers := leaveRing x.takers (c, loc) }, { r with st := hopFail code h })
    | none =>
      let s := s.updHopper h fun x => { x with takers := joinRing x.takers (c, loc) }
      let x := s.hopper h
      let n := takeUnits r.words
      if x.takers.head? = some (c, loc) ∧ n ≤ x.ready then
        (s.updHopper h fun x =>
          { x with rd := x.rd + BitVec.ofNat 64 n, takers := x.takers.tail
                   claims := x.claims ++ [{ carter := c, loc, lo := x.rd, n }] },
          { r with claim := some x.rd, st := .running })
      else (s, { r with st := .hop })

/-- A take that has issued its last request has read its units. DEDUCED, log 54. -/
def State.claimRead (s : State) (c : CarterId) (loc : Bool) (r : Run) : State :=
  match r.claim with
  | none => s
  | some lo =>
    s.updHopper (hopperOf (wordBits r.words 3 39 30)) fun x =>
      { x with claims := x.claims.map fun k => if k.carter = c ∧ k.loc = loc ∧ k.lo = lo then { k with read := true } else k }

/-- A descriptor that takes from a hopper. -/
def dTakes (w : List W64) : Bool := decide (dType w ≤ 2) && dSk w == 5

/-- The run of a feed after its elements: a take that has issued its last request has read its units. -/
def State.takeRead (c : CarterId) (loc : Bool) (p : State × Run) : State × Run :=
  if p.2.st = .issued ∧ dTakes p.2.words then (p.1.claimRead c loc p.2, p.2) else p

/-! ## Running a descriptor -/

/-- A feed can run: the clock runs, the carter is in service and, for a local ring, the ring is enabled. -/
def State.feedOn (s : State) (c : CarterId) (loc : Bool) : Bool :=
  s.rootOn && s.carterOn c && (!loc || (s.carterFld c 2 31 31 == 1 && s.carterFld c 3 24 24 == 0))

/-- With BAR the current descriptor waits for every earlier one of its ring to complete (10 R323). -/
def State.barred (s : State) (c : CarterId) (loc : Bool) (r : Run) : Bool :=
  wordBits r.words 0 53 53 == 1 && ((s.carter c).runs loc).head? != some r

/-- A take that has not claimed its units. -/
def Run.unclaimed (r : Run) : Bool := dTakes r.words && r.claim.isNone && dCount r.words != 0

/-- A feed holds work: a descriptor with elements that waits for nothing. -/
def State.feedWork (s : State) (c : CarterId) (loc : Bool) : Bool :=
  match s.curRun c loc with
  | none => false
  | some r =>
    s.feedOn c loc && !s.barred c loc r && decide (dType r.words ≤ 3) && r.st == .running && !r.unclaimed && decide (r.next < dCount r.words)

/-- The ladle has a row for carter 2b + 1, and goes before both feeds (10 R328). -/
def State.ladleFirst (s : State) (c : CarterId) : Bool :=
  match c with
  | .bench n => n.val % 2 == 1 && s.mayHand ⟨n.val / 2, by omega⟩
  | _ => false

/-- It is the feed's turn: no ladle row goes before it, and the other feed holds no work, or moved the last unit (10 R310, R328). -/
def State.feedTurn (s : State) (c : CarterId) (loc : Bool) : Bool :=
  !s.ladleFirst c && !(s.feedWork c (!loc) && (s.carter c).last == some loc)

/-- Elements of a run up to the next 64-byte boundary of what it moves; with nothing else to serve, all that are left (10 R310). DESIGN
CHOICE, log 149. -/
def State.share (s : State) (c : CarterId) (loc : Bool) (r : Run) : Nat :=
  if s.feedWork c (!loc) then min (unitElems r.words - r.next % unitElems r.words) (dCount r.words - r.next) else dCount r.words - r.next

/-- Goes on with a MOVE, GATHER, SCATTER or FILL from its next element. A take that has not claimed waits for HOPPER_TAKE. -/
def goOn (c : CarterId) (loc : Bool) (r : Run) (s : State) : State × Run :=
  if r.unclaimed then (s, r)
  else
    State.takeRead c loc
      (let s' := s.updCarter c fun x => { x with last := some loc }
       if dDk r.words = 5 then putUnits c loc (if s.feedWork c (!loc) then 1 else dCount r.words + 1) r s'
       else runElements c (s.share c loc r) r s')

/-- The current descriptor of a feed goes on by `f`, if it satisfies `p`, waits on no translation and no response, and it is the feed's
turn. -/
def runCur (c : CarterId) (loc : Bool) (p : Run → Bool) (f : Run → State → State × Run) (s : State) : State :=
  match s.curRun c loc with
  | none => s
  | some r =>
    if !s.feedOn c loc || s.barred c loc r || !p r || (r.st ≠ .running && r.st ≠ .hop) then s
    else
      match f r s with
      | (s, r) => s.setRun c loc r

/-- Runs the current descriptor of a feed if it is of type `t`. -/
def runType (c : CarterId) (loc : Bool) (t : Nat) (s : State) : State :=
  runCur c loc (fun r => dType r.words == t && s.feedTurn c loc) (goOn c loc) s

/-- MOVE. -/
def execMove (c : CarterId) (loc : Bool) (s : State) : Host.Outcome State Fault Refusal := act s (runType c loc 0)
/-- GATHER. -/
def execGather (c : CarterId) (loc : Bool) (s : State) : Host.Outcome State Fault Refusal := act s (runType c loc 1)
/-- SCATTER. -/
def execScatter (c : CarterId) (loc : Bool) (s : State) : Host.Outcome State Fault Refusal := act s (runType c loc 2)
/-- FILL. -/
def execFill (c : CarterId) (loc : Bool) (s : State) : Host.Outcome State Fault Refusal := act s (runType c loc 3)

/-- The current descriptor of a feed, whose wait and the address of it satisfy `p`, no longer waits, and goes on (10 R321). -/
def runAgain (c : CarterId) (loc : Bool) (p : EngWait → W64 → Bool) (s : State) : State :=
  match s.curRun c loc with
  | none => s
  | some r =>
    match r.st with
    | .wait w a =>
      if p w a then
        let s := s.setRun c loc { r with st := .running }
        runType c loc (dType r.words) s
      else s
    | _ => s

/-- Responses that come for no descriptor of the carter any more are dropped. -/
def State.dropReplies (s : State) (c : CarterId) : State :=
  let x := s.carter c
  let live (k : Nat) : Bool :=
    (x.ringWait.isSome && k == 1) || x.loc.any (fun r => runMark true r.id == k) || x.fore.any fun r => runMark false r.id == k
  { s with xlat := { s.xlat with replies := s.xlat.replies.filter fun r => !(r.flight.who.ofCarter c fun k => !live k) } }

/-- A descriptor with no elements of type `t`: `f` acts and says how it stands. -/
def runOther (c : CarterId) (loc : Bool) (t : Nat) (f : Run → State → State × Run) (s : State) : State :=
  runCur c loc (fun r => dType r.words == t) f s

/-- CARTER_NOP. -/
def execCarterNop (c : CarterId) (loc : Bool) (s : State) : Host.Outcome State Fault Refusal :=
  act s (runOther c loc 15 fun r s => (s, { r with st := .issued }))

/-- Units freed when REL has come to `n`. -/
def Hopper.upTo (x : Hopper) (n : W64) : Nat := (n - x.rel).toNat

/-- Every take that has claimed a unit below `n` has read it (10 R336). -/
def Hopper.allRead (x : Hopper) (n : W64) : Bool := x.claims.all fun k => k.read || decide (x.upTo n ≤ x.upTo k.lo)

/-- REL has come to `n` or passed it. -/
def Hopper.passed (x : Hopper) (n : W64) : Bool := x.upTo n == 0 || decide (x.fill < x.upTo n)

/-- Sets REL, forgetting the claims and the units below it. -/
def State.freeUnits (s : State) (h : HopperId) (n : W64) (x : Hopper) : Hopper :=
  let gone := (List.range (x.upTo n)).map fun i => s.hopSlot h (x.rel + BitVec.ofNat 64 i)
  { x with
    rel := n
    claims := x.claims.filter fun k => !(k.read && decide (x.upTo k.lo + k.n ≤ x.upTo n))
    data := x.data.filter fun p => !gone.contains (p.1 / 64)
    spilled := x.spilled.filter fun k => !gone.contains k }

/-- A HOPCTL that has marked the hopper as `x` releases the units below `n`, or waits for the takes that claimed them (10 R336). -/
def hopRelease (h : HopperId) (n : W64) (r : Run) (x : Hopper) (s : State) : State × Run :=
  if x.allRead n then (s.updHopper h fun _ => s.freeUnits h n x, { r with st := .issued })
  else (s.updHopper h fun _ => x, { r with st := .hop, claim := some n })

/-- A HOPCTL of operation `op`: refused with DESC while AREL is 1 (10 R335). It waits for the takes and HOPCTLs that were received earlier
(R334). `f` moves RD or MARK then; with `rel` REL follows MARK (R336). `claim` holds the MARK of an operation whose release waits. DEDUCED,
log 53. -/
def hopctl (c : CarterId) (loc : Bool) (op : Nat) (f : Hopper → Hopper) (rel : Bool) (s : State) : State :=
  runOther c loc 4 (fun r s =>
    let h := hopperOf (wordBits r.words 3 39 30)
    let leave (x : Hopper) : Hopper := { x with takers := leaveRing x.takers (c, loc) }
    if wordBits r.words 4 63 60 ≠ op then (s, r)
    else
      match s.hopRefuses h r.hmk with
      | some code => (s.updHopper h leave, { r with st := hopFail code h })
      | none =>
        if s.fld .hopCfg h.val 29 29 = 1 then (s.updHopper h leave, { r with st := hopFail ceDesc h })
        else
          match r.claim with
          | some n => if (s.hopper h).passed n then (s, { r with st := .issued }) else hopRelease h n r (s.hopper h) s
          | none =>
            let s := s.updHopper h fun x => { x with takers := joinRing x.takers (c, loc) }
            if (s.hopper h).takers.head? ≠ some (c, loc) then (s, { r with st := .hop })
            else
              let x := f (leave (s.hopper h))
              if rel then hopRelease h x.mark r x s else (s.updHopper h fun _ => x, { r with st := .issued })) s

/-- MARK. -/
def execMark (c : CarterId) (loc : Bool) (s : State) : Host.Outcome State Fault Refusal :=
  act s (hopctl c loc 0 (fun x => { x with mark := x.rd }) false)
/-- REWIND. -/
def execRewind (c : CarterId) (loc : Bool) (s : State) : Host.Outcome State Fault Refusal :=
  act s (hopctl c loc 1 (fun x => { x with rd := x.mark }) false)
/-- RELEASE. -/
def execRelease (c : CarterId) (loc : Bool) (s : State) : Host.Outcome State Fault Refusal :=
  act s (hopctl c loc 2 id true)
/-- MARK_AND_RELEASE. -/
def execMarkAndRelease (c : CarterId) (loc : Bool) (s : State) : Host.Outcome State Fault Refusal :=
  act s (hopctl c loc 3 (fun x => { x with mark := x.rd }) true)

/-- A descriptor that puts into a hopper. -/
def dPuts (w : List W64) : Bool := (decide (dType w ≤ 1) || dType w == 3) && dDk w == 5

/-- HOPPER_PUT_UNIT. -/
def execHopperPutUnit (c : CarterId) (loc : Bool) (s : State) : Host.Outcome State Fault Refusal :=
  act s (fun s =>
    runCur c loc (fun r => dPuts r.words && !r.unclaimed && s.feedTurn c loc)
      (fun r s => State.takeRead c loc (putUnit c loc r (s.updCarter c fun x => { x with last := some loc }))) s)

/-- HOPPER_TAKE. -/
def execHopperTake (c : CarterId) (loc : Bool) (s : State) : Host.Outcome State Fault Refusal :=
  act s (runCur c loc (fun r => dTakes r.words) (takeClaim c loc))

/-- IDLE_TIMEOUT_CLOSE: with VQC = 1 an idle packet closes (10 R338). -/
def execIdleTimeoutClose (h : HopperId) (s : State) : Host.Outcome State Fault Refusal :=
  act s (clocked fun s => if s.hopOn h && s.fld .hopCfg h.val 30 30 == 1 then s.closePacket h else s)

/-- The claims at the front that have been read: the end of the last of them (10 R335). -/
def readPrefix : W64 → List Claim → W64
  | rel, [] => rel
  | rel, k :: r => if k.read then readPrefix (k.lo + BitVec.ofNat 64 k.n) r else rel

/-- AUTO_RELEASE: with AREL = 1, takes that have read their units advance REL and MARK (10 R335). -/
def execAutoRelease (h : HopperId) (s : State) : Host.Outcome State Fault Refusal :=
  act s (clocked fun s =>
    if s.fld .hopCfg h.val 29 29 = 1 then
      s.updHopper h fun x =>
        let n := readPrefix x.rel x.claims
        { s.freeUnits h n x with mark := n }
    else s)

/-- HOPPER_NOTICE: a closed packet rings NBELL under the hopper's hallmark (10 R337). -/
def execHopperNotice (h : HopperId) (s : State) : Host.Outcome State Fault Refusal :=
  act s (clocked fun s =>
    match (s.hopper h).notices with
    | [] => s
    | n :: rest =>
      (s.updHopper h fun x => { x with notices := rest }).ringBell (BitVec.ofNat 12 (s.fld .hopOwn h.val 11 0)) none
        (BitVec.ofNat 16 (s.fld .hopOwn h.val 31 16)) (if s.fld .hopCfg h.val 27 27 = 1 then BitVec.ofNat 32 n else 1))

/-- The carters. -/
def allCarters : List CarterId :=
  (List.finRange 512).map .bench ++ (List.finRange 32).map .shop ++ (List.finRange 16).map .link

/-- The hopper of a run that waits on one. -/
def Run.hopWait (r : Run) : Option Nat :=
  if r.st ≠ .hop then none
  else if dType r.words = 4 then some (wordBits r.words 3 39 30)
  else if r.unclaimed then some (wordBits r.words 3 39 30)
  else some (wordBits r.words 3 29 20)

/-- Every operation that waits on hopper `h` fails with HOP_OFF (10 R341). -/
def State.failWaiting (s : State) (h : HopperId) : State :=
  let fail (r : Run) : Run := if r.hopWait = some h.val then { r with st := hopFail ceHopOff h } else r
  let s := { s with carters := s.carters.map fun (x : Nat × Carter) => (x.1, { x.2 with loc := x.2.loc.map fail, fore := x.2.fore.map fail }) }
  s.updHopper h fun x => { x with takers := [], putters := [] }

/-- A write of 0 to HOP_CFG.EN (10 R341, 16 R480): the hopper drains. While it drains, the write only withdraws a pending enable. -/
def State.hopperDisable (s : State) (h : HopperId) : State :=
  if s.fld .hopStatus h.val 31 31 = 1 then (s.setFld .hopStatus h.val 30 30 0).setFld .hopCfg h.val 31 31 0
  else if s.fld .hopStatus h.val 29 29 = 0 then s
  else (((s.setFld .hopStatus h.val 31 31 1).setFld .hopStatus h.val 29 29 0).setFld .hopCfg h.val 31 31 0).failWaiting h

/-- HOPPER_DISABLE. -/
def execHopperDisable (h : HopperId) (s : State) : Host.Outcome State Fault Refusal := act s (clocked fun s => s.hopperDisable h)

end Sys2Proof.Machine
end

