-- ==== Sys2Proof/Machine/CarterEnd.lean ====
section
/-! DEFINITION. The local ring's memory, the ends of descriptors, the foreman feed, launch copies, and carters and local rings that are disabled (10 R312, R313,
R318, R324-R326, R341, R529; 11 R355). -/

namespace Sys2Proof.Machine

/-! ## Completion and failure (10 R324-R326) -/

/-- CBE, CBELL and CINC of a descriptor: 0 acts as 1. -/
def dRings (w : List W64) : Bool := wordBits w 0 52 52 == 1
def dBell (w : List W64) : BitVec 16 := BitVec.ofNat 16 (wordBits w 0 47 32)
def dInc (w : List W64) : W32 := if wordBits w 0 31 16 = 0 then 1 else BitVec.ofNat 32 (wordBits w 0 31 16)

/-- Rings the completion bell of a run, when it asks for it. -/
def State.ringDone (s : State) (r : Run) (n : Option SlotId) : State :=
  if dRings r.words then s.ringBell r.hmk n (dBell r.words) (dInc r.words) else s

/-- A part of a launch copy has ended. When it was the last, the copy completes, or fails with the failing part of lowest rank (10
R318). -/
def State.partEnd (s : State) (r : RingId) (n : W32) (rank : Nat) (run : Run) (fail : Option (Byte × W64)) : State :=
  let s := s.updEntry r n fun e =>
    { e with
      running := e.running.filter (· != rank)
      failed :=
        match fail, e.failed with
        | none, f => f
        | some x, none => some (rank, x)
        | some x, some y => if rank < y.1 then some (rank, x) else some y }
  match s.entry r n with
  | none => s
  | some e =>
    if !(e.parts.isEmpty && e.running.isEmpty) then s
    else
      match e.failed with
      | none => (s.ringDone run none).endEntry r n 0 0 0
      | some f => s.endEntry r n stCopyError f.2.1.toNat f.2.2

/-- Drops the oldest run of a feed. -/
def State.popRun (s : State) (c : CarterId) (loc : Bool) : State := s.updRuns c loc List.tail

/-- Requests of a feed of which nothing is awaited any more. -/
def State.landRun (s : State) (c : CarterId) (r : Run) : State := s.landWho fun w => w.ofCarter c (· == runMark r.loc r.id)

/-- The other feed's work keeps the carter in the lists of waiting engines. -/
def waits (l : List Run) : Bool := l.any fun r => match r.st with | .wait (.fault _) _ => true | .wait .quota _ => true | _ => false

/-- A feed's translations are awaited no longer (09 R292). -/
def State.withdrawFeed (s : State) (c : CarterId) (loc : Bool) : State :=
  if waits ((s.carter c).runs !loc) || (!loc && (s.carter c).ringWait.isSome) then s else s.withdraw (.carter c)

/-! ## The local ring's memory (10 R312, R313) -/

/-- Reads `len` bytes of a local ring's memory at offset `off` from its base: of its bench's store, or at a DVA (10 R311). DEDUCED, log 60. -/
def State.ringRead (s : State) (c : CarterId) (off len : Nat) : State × ElOut :=
  s.endRead { eng := .carter c, run := 1 } (s.localHmk c) (if (carterBench c).isSome then 1 else 0) (ownBench c)
    (BitVec.ofNat 64 (s.carterBase c + off)) len

/-- Writes bytes of a local ring's memory. -/
def State.ringWrite (s : State) (c : CarterId) (off : Nat) (data : List Byte) : State × ElOut :=
  s.endWrite { eng := .carter c, run := 1 } (s.localHmk c) (if (carterBench c).isSome then 1 else 0) (ownBench c)
    (BitVec.ofNat 64 (s.carterBase c + off)) data

/-- The local rings of a slot may begin descriptors: its kernel has benches and does not end (11 R366). -/
def State.ringsBegin (s : State) (n : Option SlotId) : Bool :=
  match n with
  | none => false
  | some n =>
    match (s.kernel n).phase with
    | .none | .waiting | .ending _ => false
    | _ => true

/-- The ring stops without a start: the carter has read its control block. -/
def State.readDone (s : State) (c : CarterId) (seen : W32) (err : Bool) : State :=
  s.updCarter c fun x => { x with seen, reread := false, err }

/-- The descriptors of the ring that have begun and not completed. -/
def begun (x : Carter) : Nat := x.loc.length

/-- A slot's descriptor starts, as the youngest run of the local ring. -/
def State.startSlot (s : State) (c : CarterId) (n : W32) (w : List W64) : State :=
  match s.startState c true w with
  | (s', st) => s'.addRun c (.ring n) w (s.localHmk c) st

/-- The carter waits in its access `op` to the ring's memory; or the access has failed, and the ring's next descriptor with it: an error
completion (09 R289, R296; 10 R321). DEDUCED, log 150. -/
def State.ringHolds (s : State) (c : CarterId) (op : RingOp) : RunSt → State
  | .wait w a => s.updCarter c fun x => { x with ringWait := some ⟨op, w, a⟩ }
  | st => s.addRun c (.ring (match op with | .slot n => n | _ => 0)) [] (s.localHmk c) st

/-- The carter reads the descriptor of slot count `n` and starts it; with BAR it waits for the earlier ones to complete. -/
def readSlot (c : CarterId) (n : W32) (s : State) : State :=
  match s.ringRead c (128 * (1 + n.toNat % 2 ^ ringLog (s.carterFld c 2 19 16))) 128 with
  | (s', .ok e) =>
    let w := wordsOf 16 e
    if wordBits w 0 53 53 = 1 ∧ begun (s.carter c) ≠ 0 then s else s'.startSlot c n w
  | (s', .stop st) => s'.ringHolds c (.slot n) st

/-- The carter reads words 0, 2 and 3 of its control block and starts the next slot (10 R313). -/
def readBlock (c : CarterId) (s : State) : State :=
  let x := s.carter c
  match s.ringRead c 0 128 with
  | (s, .ok d) =>
    let cb := wordsOf 4 d
    let err := wordBits cb 2 63 63 = 1
    let n : W32 := (cb.getD 1 0).setWidth 32 + BitVec.ofNat 32 (begun x)
    let s := s.updCarter c fun x => { x with err, word3 := cb.getD 3 0 }
    if err || n = (cb.getD 0 0).setWidth 32 || (s.curRun c true).isSome then s else readSlot c n s
  | (s, .stop st) => s.ringHolds c .block st

/-- CARTER_DOORBELL_WAKE: the doorbell's count has changed, or a descriptor has completed, and the carter reads its control block (10
R313). A doorbell bell that refuses the ring's hallmark never wakes it (11 R345). -/
def carterWake (c : CarterId) (s : State) : State :=
  let x := s.carter c
  let bell := BitVec.ofNat 16 (s.carterFld c 2 15 0)
  let seen := s.bell bell
  if !s.rootOn || !s.carterOn c || s.carterFld c 2 31 31 ≠ 1 || s.carterFld c 3 24 24 = 1 || !s.ringsBegin (s.carterSlot c)
      || x.ringWait.isSome then s
  else if x.seen = seen && !x.reread then s
  else if !s.bellAllows (s.localHmk c) bell then
    ((s.denyBell (s.localHmk c) bell).refuseKernel (s.carterSlot c)).readDone c seen x.err
  else readBlock c (s.readDone c seen x.err)

/-- CARTER_DOORBELL_WAKE. -/
def execCarterDoorbellWake (c : CarterId) (s : State) : Host.Outcome State Fault Refusal := act s (carterWake c)

/-! ## The ends of descriptors -/

/-- Element `n` of a run has failed: of the failing elements the lowest counts, and no further request is issued (10 R324). -/
def Run.failAt (r : Run) (n : Nat) (code sub : Byte) (a : W64) : Run :=
  match r.st with
  | .failed .. => if n < r.next then { r with next := n, st := .failed code sub a } else r
  | _ => { r with next := n, st := .failed code sub a }

/-- The oldest run has issued its last request, and every request is answered: HEAD is written and CBELL rung, or its copy ends. A HEAD that
cannot be written fails the descriptor (DEDUCED, log 150). -/
def descriptorComplete (c : CarterId) (loc : Bool) (s : State) : State :=
  match ((s.carter c).runs loc).head? with
  | none => s
  | some r =>
    if !s.rootOn || r.st ≠ .issued || !s.runQuiet c r || (s.carter c).ringWait.isSome && loc then s
    else
      match r.src with
      | .ring n =>
        match s.ringWrite c 8 (leBytes 4 (n + 1).toNat) with
        | (s, .ok _) => ((s.popRun c loc).updCarter c fun x => { x with reread := true }).ringDone r (s.carterSlot c)
        | (s, .stop (.wait w a)) => s.updCarter c fun x => { x with ringWait := some ⟨.head, w, a⟩ }
        | (s, .stop st) => s.updRuns c loc fun l => { r with st } :: l.tail
      | .copy g n => ((s.popRun c loc).ringDone r none).endEntry g n 0 0 0
      | .part g n k => (s.popRun c loc).partEnd g n k r none

/-- DESCRIPTOR_COMPLETE. -/
def execDescriptorComplete (c : CarterId) (loc : Bool) (s : State) : Host.Outcome State Fault Refusal :=
  act s (descriptorComplete c loc)

/-- A run leaves its carter: it waits on no hopper, and a take that has claimed units reads no more of them. -/
def State.dropRun (s : State) (c : CarterId) (loc : Bool) (r : Run) : State :=
  let leave (s : State) (h : HopperId) : State :=
    s.updHopper h fun x => { x with takers := leaveRing x.takers (c, loc), putters := leaveRing x.putters (c, loc) }
  let s := if dTakes r.words then s.claimRead c loc r else s
  let s := if dTakes r.words || dType r.words == 4 then leave s (hopperOf (wordBits r.words 3 39 30)) else s
  if dPuts r.words then leave s (hopperOf (wordBits r.words 3 29 20)) else s

/-- Word 2 of the control block for a failure (10 table 10.2). -/
def errWord (code sub : Byte) (addr : W64) : W64 :=
  BitVec.ofNat 64 (2 ^ 63 + code.toNat % 128 * 2 ^ 56 + sub.toNat % 16 * 2 ^ 52) ||| addr52 addr

/-- The ring has stopped: its runs are dropped, and EBELL rings when EBE asks for it (10 R324). -/
def State.ringStopped (s : State) (c : CarterId) (h : BitVec 12) : State :=
  let w := (s.carter c).word3
  let s := (s.carter c).loc.foldl (fun s r => (s.dropRun c true r).landRun c r) s
  let s := (s.updRuns c true fun _ => []).updCarter c fun x => { x with err := true }
  if w.getLsbD 16 then s.ringBell h (s.carterSlot c) (w.setWidth 16) 1 else s

/-- The ring stops: ERR is written (10 R324). Where it cannot be written the ring stops all the same (DEDUCED, log 150). -/
def State.ringStop (s : State) (c : CarterId) (r : Run) (code sub : Byte) (addr : W64) : State :=
  match s.ringWrite c 16 (leBytes 8 (errWord code sub addr).toNat) with
  | (s, .stop (.wait w a)) => s.updCarter c fun x => { x with ringWait := some ⟨.stop, w, a⟩ }
  | (s, _) => s.ringStopped c r.hmk

/-- The oldest run has failed and its requests have ended: its ring stops, or its copy ends with an error (10 R324, R325). -/
def descriptorFail (c : CarterId) (loc : Bool) (s : State) : State :=
  match ((s.carter c).runs loc).head? with
  | none => s
  | some r =>
    match r.st with
    | .failed code sub addr =>
      if !s.rootOn || !s.runQuiet c r || (s.carter c).ringWait.isSome && loc then s
      else
        match r.src with
        | .ring _ => s.ringStop c r code sub addr
        | .copy g n => (((s.dropRun c loc r).landRun c r).popRun c loc).endEntry g n stCopyError code.toNat addr
        | .part g n k => (((s.dropRun c loc r).landRun c r).popRun c loc).partEnd g n k r (some (code, addr))
    | _ => s

/-- DESCRIPTOR_FAIL. -/
def execDescriptorFail (c : CarterId) (loc : Bool) (s : State) : Host.Outcome State Fault Refusal := act s (descriptorFail c loc)

/-- A carter's access to its ring's memory goes on (09 R295). -/
def ringResume (c : CarterId) (p : EngWait → W64 → Bool) (s : State) : State :=
  match (s.carter c).ringWait with
  | none => s
  | some x =>
    if !p x.wait x.addr then s
    else
      let s := s.updCarter c fun y => { y with ringWait := none }
      match x.op with
      | .block => readBlock c s
      | .slot n => readSlot c n s
      | .head => descriptorComplete c true s
      | .stop => descriptorFail c true s
      | .close => s

/-- A carter's access to its ring's memory has failed (09 R296; 10 R321, R326). -/
def ringGiveUp (c : CarterId) (p : RingWait → Bool) (code sub : Byte) (s : State) : State :=
  match (s.carter c).ringWait with
  | none => s
  | some x =>
    if !p x then s
    else
      let s := (s.updCarter c fun y => { y with ringWait := none }).landWho fun w => w.ofCarter c (· == 1)
      match x.op, ((s.carter c).runs true).head? with
      | .head, some r => s.updRuns c true fun l => { r with st := .failed code sub x.addr } :: l.tail
      | .stop, some r => s.ringStopped c r.hmk
      | .close, _ =>
        let s := s.setCarterFld c 2 31 31 0
        { s with kernels := s.kernels.map fun (k : Nat × Kernel) => (k.1, { k.2 with rings := k.2.rings.filter (· != c) }) }
      | op, _ => s.ringHolds c op (.failed code sub x.addr)

/-- The carter's accesses that wait as `p` says go on: those of its ring's memory and of its two feeds (09 R295; 10 R321). -/
def carterRetry (c : CarterId) (p : EngWait → W64 → Bool) (s : State) : State :=
  runAgain c false p (runAgain c true p (ringResume c p s))

/-- Responses have come to a carter, or a stack serves it again: what waits for them goes on. -/
def carterGo (c : CarterId) (s : State) : State := (carterRetry c (fun w _ => w == .ext) s).dropReplies c

/-- A posted write of run mark `k` of carter `c` has failed: its run fails at its element (10 R324, R325). -/
def carterWriteFailed (c : CarterId) (f : Flight) (code : Byte) (s : State) : State :=
  let fail (r : Run) : Run := if runMark r.loc r.id = f.who.run then r.failAt f.who.n code 0 f.who.el else r
  s.updCarter c fun x => { x with loc := x.loc.map fail, fore := x.fore.map fail }

/-- The oldest write of a run that has not been answered. -/
def State.sentWrite (s : State) (c : CarterId) (r : Run) : Option Flight :=
  let mine (f : Flight) : Bool := f.who.ofCarter c (· == runMark r.loc r.id)
  match s.mem.acks.find? mine with
  | some f => some f
  | none =>
    (s.portq.flatMap fun q => q.2).findSome? fun i => match i with | .write (some f) .. => if mine f then some f else none | _ => none

/-- CARTER_REQUEST_TIMEOUT: the oldest request of a feed that has had no answer fails with TIMEOUT (10 R326): an access to the ring's memory, a
write, which may still be performed later, or a read. -/
def carterTimeout (c : CarterId) (loc : Bool) (s : State) : State :=
  if loc && (s.carter c).ringWait.any (fun x => x.wait == .ext) then ringGiveUp c (fun x => x.wait == .ext) (busCode subTimeout) 0 s
  else
    match ((s.carter c).runs loc).findSome? (s.sentWrite c) with
    | some f => carterWriteFailed c f (busCode subTimeout) (s.forget (· == f))
    | none =>
      match s.curRun c loc with
      | none => s
      | some r =>
        match r.st with
        | .wait .ext a => (s.landRun c r).setRun c loc { r with st := .failed (busCode subTimeout) 0 a }
        | _ => s

/-- CARTER_REQUEST_TIMEOUT. -/
def execCarterRequestTimeout (c : CarterId) (loc : Bool) (s : State) : Host.Outcome State Fault Refusal :=
  act s (carterTimeout c loc)

/-- What waits on entry `n`, or without a record for the entry's page, is abandoned: TRANSL with the entry's subcause (10 R321; 09 R296). -/
def carterAbandon (c : CarterId) (n page : Nat) (sub : Byte) (s : State) : State :=
  let hit (w : EngWait) (a : W64) : Bool := w == .fault n || (w == .quota && a.toNat / 65536 == page)
  let feed (loc : Bool) (s : State) : State :=
    match s.curRun c loc with
    | none => s
    | some r =>
      match r.st with
      | .wait w a => if hit w a then s.setRun c loc { r with st := .failed ceTransl sub a } else s
      | _ => s
  feed false (feed true (ringGiveUp c (fun x => hit x.wait x.addr) ceTransl sub s))

/-! ## The foreman feed (11 R355, 10 R318, R341) -/

/-- A shop carter. -/
def shopCarter (n : Nat) : CarterId := .shop ⟨n % 32, by omega⟩

/-- The shop whose carters a copy must use: that of the bench that it names. -/
def copyShop (w : List W64) : Option Nat :=
  let near (k : Nat) : Bool := decide (1 ≤ k) && decide (k ≤ 4)
  if near (dDk w) then some (dDb w / 16) else if dType w ≠ 3 ∧ near (dSk w) then some (dSb w / 16) else none

/-- The carter of shop `sh` that is next, and in service; the other when it is off (10 R341). -/
def State.pickOf (s : State) (sh : Nat) : State × Option CarterId :=
  let k := if Sp.get (fun _ => false) s.shopAlt sh then 1 else 0
  let s' := { s with shopAlt := Sp.put s.shopAlt sh (k = 0) }
  if s.carterOn (shopCarter (2 * sh + k)) then (s', some (shopCarter (2 * sh + k)))
  else if s.carterOn (shopCarter (2 * sh + 1 - k)) then (s', some (shopCarter (2 * sh + 1 - k)))
  else (s', none)

/-- The carter that a copy goes to. DESIGN CHOICE, log 61. -/
def State.pickCarter (s : State) (w : List W64) : State × Option CarterId :=
  match copyShop w with
  | some sh => s.pickOf sh
  | none => ({ s with rotate := (s.rotate + 1) % 32 }).pickOf (s.rotate / 2)

/-- Gives a descriptor to a carter's foreman feed. -/
def State.feed (s : State) (c : CarterId) (src : RunOf) (w : List W64) (h : BitVec 12) : State :=
  match s.startState c false w with
  | (s, st) => s.addRun c src w h st

/-- The words of the part for the bench of a rank: DB names it (10 R318). -/
def partWords (w : List W64) (b : BenchId) : List W64 :=
  w.set 3 (w.getD 3 0 ||| BitVec.ofNat 64 (b.val * 2 ^ 40))

/-- The carter of a part: the two of the bench's shop are taken alternately in rank order. -/
def State.partCarter (s : State) (bs : List BenchId) (rank : Nat) (b : BenchId) : Option CarterId :=
  let k := ((bs.take rank).filter fun x => x.val / 16 == b.val / 16).length % 2
  let sh := b.val / 16
  if s.carterOn (shopCarter (2 * sh + k)) then some (shopCarter (2 * sh + k))
  else if s.carterOn (shopCarter (2 * sh + 1 - k)) then some (shopCarter (2 * sh + 1 - k))
  else none

/-- LAUNCH_COPY_PART: one part, for a bench whose launch block is written, is given to a shop carter. -/
def launchCopyPart (n : SlotId) (s : State) : State :=
  let k := s.kernel n
  let ready (e : SEntry) : Option Nat :=
    e.parts.find? fun p => match k.benches[p]? with | some b => k.written.contains b | none => false
  match (s.ring k.ring).entries.find? fun e => e.st == .begun && e.type == 2 && (ready e).isSome with
  | none => s
  | some e =>
    match ready e with
    | none => s
    | some p =>
      match k.benches[p]? with
      | none => s
      | some b =>
        let s := s.updEntry k.ring e.n fun e => { e with parts := e.parts.filter (· != p), running := p :: e.running }
        let w := partWords (e.words.drop 1) b
        let src := RunOf.part k.ring e.n p
        match s.partCarter k.benches p b with
        | some c => s.feed c src w (s.streamHmk k.ring)
        | none => s.partEnd k.ring e.n p { id := 0, src, words := w, hmk := s.streamHmk k.ring } (some (ceOff, 0))

/-- LAUNCH_COPY_PART. -/
def execLaunchCopyPart (n : SlotId) (s : State) : Host.Outcome State Fault Refusal := act s (clocked (launchCopyPart n))

/-! ## Disabling (10 R341, R529) -/

/-- The local ring's runs leave the carter; HEAD stays, and they run again from element 0 (10 R341, R529). Their requests in flight remain. -/
def State.dropLocal (s : State) (c : CarterId) : State :=
  let s := (s.carter c).loc.foldl (fun s r => s.dropRun c true r) s
  (((s.withdrawFeed c true).updRuns c true fun _ => []).updCarter c fun x =>
    { x with reread := true, ringWait := none }).dropReplies c

/-- A write of 0 to CRT_RING_CFG.EN stops the local ring alone; LBUSY reads 1 while its requests are in flight (10 R529). -/
def State.localDisable (s : State) (c : CarterId) : State :=
  if s.carterFld c 2 31 31 = 0 then s
  else
    let busy := s.localBusy c
    ((s.setCarterFld c 2 31 31 0).setCarterFld c 3 24 24 (if busy then 1 else 0)).dropLocal c

/-- LOCAL_RING_DISABLE. -/
def execLocalRingDisable (c : CarterId) (s : State) : Host.Outcome State Fault Refusal := act s (clocked fun s => s.localDisable c)

/-- A write of 0 to CRT_CTL.EN: the carter drains; local work stops with HEAD unchanged, and foreman-feed descriptors end with
CARTER_OFF (10 R341). While it drains, the write only withdraws a pending enable (16 R480). -/
def State.carterDisable (s : State) (c : CarterId) : State :=
  if s.carterFld c 3 31 31 = 1 then (s.setCarterFld c 3 30 30 0).setCarterFld c 4 31 31 0
  else if s.carterFld c 3 29 29 = 0 then s
  else
    let s := ((s.setCarterFld c 3 31 31 1).setCarterFld c 3 29 29 0).setCarterFld c 4 31 31 0
    let s := (s.carter c).fore.foldl (fun s r => s.dropRun c false r) (s.dropLocal c)
    State.drawn <| (s.withdraw (.carter c)).updRuns c false fun l => l.map fun r =>
      match r.st with
      | .issued => r
      | .failed .. => r
      | _ => { r with st := .failed ceOff 0 ((Config.descAddr s.draws).setWidth 64) }

/-- CARTER_DISABLE. -/
def execCarterDisable (c : CarterId) (s : State) : Host.Outcome State Fault Refusal := act s (clocked fun s => s.carterDisable c)

end Sys2Proof.Machine
end

