-- ==== Sys2Proof/Machine/Counting.lean ====
section
/-! DEFINITION. The counting-house and the entries of streams other than launches (11 R353-R355; 12 R383-R386; 09 R299, R300). -/

namespace Sys2Proof.Machine

/-! ## The turn (11 R353) -/

/-- Bytes that the counting-house reads of a descriptor of each TYPE. -/
def descBytes (t : Nat) : Nat :=
  match t with
  | 1 => 256
  | 2 => 136
  | 3 | 4 => 16
  | 5 => 32
  | _ => 8

/-- The ring fetches: enabled, not draining. -/
def State.ringOn (s : State) (r : RingId) : Bool := s.fld .cthRingCfg r.val 31 31 == 1 && s.fld .cthRingCfg r.val 30 30 == 0

/-- Free job slots. -/
def State.freeSlots (s : State) : List SlotId := (List.finRange 64).filter fun n => s.slotState n == 0

/-- Entries fetched and not begun. -/
def Ring.unbegun (g : Ring) : Nat := (g.entries.filter fun e => e.st == .fetched).length

/-- The counting-house serves the ring. Host memory must be within reach. -/
def State.servesRing (s : State) (r : RingId) : Bool :=
  s.ringOn r && !s.ringHalted r && s.reg ⟨.cthRingFetch, r.val, 0⟩ != (s.ring r).tail && decide ((s.ring r).unbegun < 16)
    && ((s.ring r).slot.isSome || !s.freeSlots.isEmpty) && s.linkUp (s.linkOf (s.ringFn r))

/-- The next ring in increasing number, round robin. DESIGN CHOICE, log 135. -/
def State.nextRing (s : State) : Option RingId :=
  let l := (List.finRange 4096).filter s.servesRing
  match l.find? fun r => s.turn < r.val with
  | some r => some r
  | none => l.head?

/-- The words of the descriptor in slot `n` of a ring that its TYPE uses. -/
def State.ringDesc (s : State) (r : RingId) (n : W32) : List W64 :=
  let a := s.base52 .cthRingBaseLo .cthRingBaseHi r.val 8 + 256 * (n.toNat % 2 ^ log2At4 (s.fld .cthRingCfg r.val 23 20))
  let head := BitVec.ofNat 64 (leVal (s.mem.host.bytes id a 8))
  let k := descBytes (wbits head 63 60)
  wordsOf (k / 8) (s.mem.host.bytes id a k)

/-! ## Invalidations (09 R299, R300) -/

/-- Hallmark, first page and pages of an invalidation; no hallmark: every one. -/
def invalRange (w : List W64) : Option (BitVec 12) × Nat × Nat :=
  let kind := wordBits w 1 63 62
  let h := BitVec.ofNat 12 (wordBits w 1 11 0)
  if kind = 3 then (none, 0, 2 ^ 36)
  else if kind = 0 then
    let start := wordBits w 2 51 16
    (some h, start, min (wordBits w 3 35 0) (2 ^ 36 - start))
  else (some h, 0, 2 ^ 36)

/-- The counting-house refuses an invalidation (R299); function `f` submits it. A hallmark whose descriptor cannot be read has no
function. DEDUCED, log 51. -/
def State.invalRefused (s : State) (f : Nat) (w : List W64) : Bool :=
  let kind := wordBits w 1 63 62
  let reserved :=
    wordBits w 1 61 12 != 0 || wordBits w 2 63 52 != 0 || wordBits w 2 15 0 != 0 || wordBits w 3 63 36 != 0
      || (kind == 3 && wordBits w 1 11 0 != 0) || (kind != 0 && (wordBits w 2 51 16 != 0 || wordBits w 3 35 0 != 0))
  let foreign :=
    match (s.context (BitVec.ofNat 12 (wordBits w 1 11 0))).2 with
    | some (_, w1) => wbits w1 21 16 != f
    | none => true
  reserved || wordBits w 0 57 32 != 0 || (kind == 3 && f != 0) || (kind != 3 && foreign)

/-- A cached span of `k` pages from `p` meets the range of `n` pages from `q`. -/
def spansMeet (p k q n : Nat) : Bool := n != 0 && decide (p < q + n) && decide (q < p + k)

/-- The entry of an invalidation with epoch `epoch` ends with OK; its record is written at once if it is the first that waits (09 R301). -/
def State.invalDone (s : State) (r : RingId) (n : W32) (epoch : W32) : State :=
  match s.entry r n with
  | none => s
  | some e =>
    let first := (s.ring r).recs.isEmpty
    let s := (s.updEntry r n fun e => { e with st := .ended }).updRing r fun g => { g with recs := g.recs ++ [completionRec e 0 0 0 epoch] }
    if first then s.writeCompletion r else s

/-- The translation unit acts on a valid invalidation: a new epoch, and every entry of the named hallmarks whose span overlaps the
range is removed; KIND 2 and 3 also drop contexts. A range of no page ends at once (R301). -/
def State.invalidate (s : State) (r : RingId) (n : W32) (w : List W64) : State :=
  let epoch := s.xlat.epoch + 1
  let kind := wordBits w 1 63 62
  let rg := invalRange w
  let named (h : BitVec 12) : Bool := match rg.1 with | some x => x == h | none => true
  let s := s.purgeCaches fun t => named t.hmk && spansMeet t.page t.pages rg.2.1 rg.2.2
  let s := { s with
    xlat := { s.xlat with
      epoch
      contexts := if 2 ≤ kind then s.xlat.contexts.filter fun c => !named c.1 else s.xlat.contexts
      walks := s.xlat.walks.filter fun x =>
        !(named x.hmk && spansMeet (x.prefix_ * 2 ^ (36 - 12 * x.lvl)) (2 ^ (36 - 12 * x.lvl)) rg.2.1 rg.2.2) } }
  if rg.2.2 = 0 then s.invalDone r n epoch
  else
    { s with
      xlat := { s.xlat with
        inval := s.xlat.inval ++
          [{ epoch, ring := r, header := w.getD 0 0, seq := n, hmk := rg.1, page := rg.2.1, pages := rg.2.2 }] } }

/-! ## Fetching -/

/-- The foreman binds the stream to a free job slot, which takes the ring's function and hallmark. Which free slot is a free value. -/
def State.bindSlot (s : State) (r : RingId) : State :=
  if (s.ring r).slot.isSome then s
  else
    match s.freeSlots with
    | [] => s
    | n0 :: rest =>
      let l := n0 :: rest
      let n := l.getD (Config.freeSlot s.draws % l.length) n0
      let s := s.drawn.updRing r fun g => { g with slot := some n, slotFn := BitVec.ofNat 6 (s.ringFn r) }
      let s := ((s.setSlotState n 1).setFld .fmnSlotStat n.val 23 12 (s.ringHmk r).toNat).setFld .fmnSlotStat n.val 11 0 r.val
      s.setKernel n {}

/-- A fetched descriptor joins the entries of its stream. A launch whose prerequisite has ended with a status other than OK has lost it (11
R355). -/
def State.joinEntry (s : State) (r : RingId) (n : W32) (w : List W64) : State :=
  let t := wordBits w 0 63 60
  let e : SEntry := { n, words := w, pre := (s.ring r).copies }
  let e := { e with preFailed := (s.ring r).lostCopies.any e.needs }
  s.updRing r fun g =>
    { g with
      entries := g.entries ++ [e], copies := if t = 2 then g.copies + 1 else 0
      lostCopies := if t = 2 then g.lostCopies else [] }

/-- One fetched descriptor is passed on: an INVALIDATE to the translation unit, any other to the foreman. An entry of a stream under hallmark
0, to which no slot is assigned (09 R276), is refused. DESIGN CHOICE, log 152. -/
def State.passOn (s : State) (r : RingId) (n : W32) (w : List W64) : State :=
  let s := s.joinEntry r n w
  if wordBits w 0 63 60 = 5 then
    let s := s.updEntry r n fun e => { e with st := .begun }
    if s.invalRefused (s.ringFn r) w then (s.context (BitVec.ofNat 12 (wordBits w 1 11 0))).1.endEntry r n stRefused 0 0
    else s.invalidate r n w
  else if (s.ring r).slot.isNone && s.ringHmk r == 0 then s.endEntry r n stRefused 0 0
  else s.bindSlot r

/-- Up to `k` descriptors of ring `r`, of which `bytes` bytes are left to read in the turn; each goes on by `pass`. -/
def fetchFrom (r : RingId) (pass : State → W32 → List W64 → State) : Nat → Nat → State → State
  | 0, _, s => s
  | k + 1, bytes, s =>
    let n := s.reg ⟨.cthRingFetch, r.val, 0⟩
    if n = (s.ring r).tail ∨ s.ringHalted r then s
    else
      let w := s.ringDesc r n
      let t := wordBits w 0 63 60
      if bytes < descBytes t ∨ (t = 5 ∧ 64 ≤ s.xlat.inval.length) then s
      else
        let s := pass (s.setReg ⟨.cthRingFetch, r.val, 0⟩ (n + 1)) n w
        if t = 1 then s else fetchFrom r pass k (bytes - descBytes t) s

/-- FETCH_TURN; `host` holds the contents of host memory that the turn reads (DESIGN CHOICE, log 7). DEDUCED, log 65. -/
def fetchTurn (host : Cells) (s : State) : State :=
  match s.nextRing with
  | none => s
  | some r => fetchFrom r (fun s n w => s.passOn r n w) 8 1024 { s.learnHost host with turn := r.val }

/-- FETCH_TURN. -/
def execFetchTurn (host : Cells) (s : State) : Host.Outcome State Fault Refusal := act s (clocked (fetchTurn host))

/-! ## Entries that begin (11 R355) -/

/-- The header's reserved bits are 0 (12 R385). -/
def SEntry.headerOk (e : SEntry) : Bool := wordBits e.words 0 57 32 == 0

/-- The entry before one that may begin, in a list of a stream's entries: none is left when it has completed. -/
def entryBefore (n : W32) : List SEntry → Option SEntry
  | a :: b :: r => if b.n = n ∧ a.n + 1 = n then some a else entryBefore n (b :: r)
  | _ => none

/-- The entries before `n`. -/
def entriesBefore (n : W32) (l : List SEntry) : List SEntry := l.takeWhile fun e => e.n != n

/-- Entry `e` may begin by the rule of its type, R355. -/
def State.mayBegin (s : State) (r : RingId) (e : SEntry) : Bool :=
  let l := (s.ring r).entries
  e.st == .fetched && !s.ringHalted r && (s.ring r).slot.isSome &&
    match e.type with
    | 1 => (entriesBefore e.n l).all fun x => x.type == 2 && e.needs x.n
    | 2 =>
      match entryBefore e.n l with
      | none => true
      | some p => p.type == 2 && p.st != .fetched
    | 4 => (entriesBefore e.n l).isEmpty
    | _ => (entryBefore e.n l).isNone

/-- The first entry of a ring that satisfies `p` and may begin. -/
def State.nextEntry (s : State) (r : RingId) (p : SEntry → Bool) : Option SEntry :=
  (s.ring r).entries.find? fun e => p e && s.mayBegin r e

/-- Begins the next entry of a kind with `f`; one whose header has a non-zero reserved field is refused (12 R385). -/
def beginEntry (r : RingId) (p : SEntry → Bool) (f : SEntry → State → State) (s : State) : State :=
  match s.nextEntry r p with
  | none => s
  | some e => if e.headerOk then f e s else s.endEntry r e.n stRefused 0 0

/-- NOP. An entry of a reserved TYPE ends here as well, with REFUSED. -/
def execNop (r : RingId) (s : State) : Host.Outcome State Fault Refusal :=
  act s (clocked (beginEntry r (fun e => e.type == 0 || decide (6 ≤ e.type)) fun e s =>
    s.endEntry r e.n (if e.type = 0 then 0 else stRefused) 0 0))

/-- The bell that a BWAIT or a BRING names. -/
def SEntry.bell (e : SEntry) : BitVec 16 := BitVec.ofNat 16 (wordBits e.words 1 63 48)

/-- BWAIT: completes when its bell meets its target; a refused bell halts the stream. -/
def execBwait (r : RingId) (s : State) : Host.Outcome State Fault Refusal :=
  act s (clocked (beginEntry r (fun e => e.type == 3) fun e s =>
    if !s.bellAllows (s.streamHmk r) e.bell then (s.denyBell (s.streamHmk r) e.bell).endEntry r e.n stRefused 0 0
    else if meets (s.bell e.bell) (BitVec.ofNat 32 (wordBits e.words 1 31 0)) then s.endEntry r e.n 0 0 0
    else s.updEntry r e.n fun e => { e with st := .begun }))

/-- A waiting BWAIT completes. -/
def ringBellWake (r : RingId) (s : State) : State :=
  match (s.ring r).entries.find? fun e => e.type == 3 && e.st == .begun with
  | none => s
  | some e => if meets (s.bell e.bell) (BitVec.ofNat 32 (wordBits e.words 1 31 0)) then s.endEntry r e.n 0 0 0 else s

/-- BELL_COUNT_WAKE. -/
def execBellCountWake (w : BellWaiter) (s : State) : Host.Outcome State Fault Refusal :=
  act s fun s =>
    match w with
    | .bench b => benchBellWake b s
    | .ring r => clocked (ringBellWake r) s

/-- BRING: a ring on this device, or a chime to the peer that it names. DEDUCED, log 64. -/
def execBring (r : RingId) (s : State) : Host.Outcome State Fault Refusal :=
  act s (clocked (beginEntry r (fun e => e.type == 4) fun e s =>
    let p : PeerId := BitVec.ofNat 12 (wordBits e.words 1 43 32)
    let v : W32 := BitVec.ofNat 32 (wordBits e.words 1 31 0)
    let h := s.streamHmk r
    if p = s.ownPeer then
      if s.bellAllows h e.bell then (s.addBell e.bell v).endEntry r e.n 0 0 0
      else (s.denyBell h e.bell).endEntry r e.n stRefused 0 0
    else if !s.reachable p then s.endEntry r e.n stRefused 0 0
    else (s.sendChime p h e.bell v).updEntry r e.n fun e => { e with st := .begun, chime := some (p, s.nextSeq p) }))

/-! ## Chimes that end (11 R350; 14 R439) -/

/-- The ring and entry whose BRING waits for a chime. -/
def State.bringWaiter (s : State) (p : PeerId) (seq : W32) : Option (RingId × W32) :=
  (List.finRange 4096).findSome? fun r =>
    ((s.ring r).entries.find? fun e => e.chime = some (p, seq) && e.st == .begun).map fun e => (r, e.n)

/-- A chime ends for its issuer: it has been acknowledged (`none`), or has failed with a Bus error subcause. -/
def State.chimeDone (s : State) (p : PeerId) (seq : W32) (bad : Option Byte) : State :=
  match s.chimeWaiter p seq with
  | some b => chimeEnd b bad s
  | none =>
    match s.bringWaiter p seq with
    | some (r, n) => s.endEntry r n (if bad.isNone then 0 else stRefused) 0 0
    | none => s

/-- CHIME_ACK_RECEIVE: the chime is acknowledged, perhaps as refused. -/
def chimeAck (p : PeerId) (seq : W32) (refused : Bool) (s : State) : State :=
  if s.belfry.sent.any fun c => c.peer = p && c.seq = seq then
    (s.updBelfry fun y => { y with sent := y.sent.filter fun c => !(c.peer = p && c.seq = seq) }).chimeDone p seq
      (if refused then some subDenied else none)
  else s

/-- CHIME_ACK_RECEIVE. -/
def execChimeAckReceive (p : PeerId) (seq : W32) (refused : Bool) (s : State) : Host.Outcome State Fault Refusal :=
  act s (clocked fun s => chimeAck p seq refused (s.unload fun k => k.src == p && k.body == .chimeAck seq refused))

/-- A chime is sent again, or fails after RETRY resends. -/
def State.chimeAgain (s : State) (c : Sent) : State :=
  if s.fld .dryE2e 0 7 0 ≤ c.tries then
    (s.updBelfry fun y =>
      { y with
        sent := y.sent.filter fun d => !(d.peer = c.peer && d.seq = c.seq)
        resync := if y.resync.contains c.peer then y.resync else c.peer :: y.resync }).chimeDone c.peer c.seq (some subLink)
  else
    (s.updBelfry fun y =>
      { y with sent := y.sent.map fun d => if d.peer = c.peer && d.seq = c.seq then { d with tries := d.tries + 1 } else d }).sendTo
      c.peer 4 (.chime c.seq c.resync c.hmk c.bell c.v) []

/-- CHIME_RESEND: the unacknowledged chimes to a peer, in sequence order. -/
def execChimeResend (p : PeerId) (s : State) : Host.Outcome State Fault Refusal :=
  act s (clocked fun s => (s.belfry.sent.filter fun c => c.peer = p).foldl State.chimeAgain s)

/-! ## Copies (11 R355; 10 R318) -/

/-- The carter descriptor of a COPY entry. -/
def SEntry.desc (e : SEntry) : List W64 := e.words.drop 1

/-- A launch copy: LB = 1. -/
def SEntry.launchCopy (e : SEntry) : Bool := e.type == 2 && dLb e.desc

/-- The first entry after `n` that is no COPY. -/
def launchAfter (n : W32) : List SEntry → Option SEntry
  | [] => none
  | e :: r => if e.n = n then r.find? fun x => x.type != 2 else launchAfter n r

/-- The form that R318 allows a launch copy. -/
def launchCopyForm (w : List W64) : Bool :=
  (dType w == 0 || dType w == 3) && decide (1 ≤ dDk w) && decide (dDk w ≤ 4) && dDb w == 0

/-- A launch copy begins once its launch has its benches; one that R318 does not allow is refused. -/
def launchCopyBegin (r : RingId) (e : SEntry) (s : State) : State :=
  if !launchCopyForm e.desc then s.endEntry r e.n stRefused 0 0
  else
    match launchAfter e.n (s.ring r).entries, (s.ring r).slot with
    | some l, some n =>
      let k := s.kernel n
      if l.type ≠ 1 ∨ !l.needs e.n then s.endEntry r e.n stRefused 0 0
      else if k.phase = .assigned ∧ k.n = l.n then
        s.updEntry r e.n fun e => { e with st := .begun, parts := List.range k.benches.length }
      else s
    | _, _ => s

/-- COPY. -/
def execCopy (r : RingId) (s : State) : Host.Outcome State Fault Refusal :=
  act s (clocked (beginEntry r (fun e => e.type == 2) fun e s =>
    if e.launchCopy then launchCopyBegin r e s
    else
      match s.pickCarter e.desc with
      | (s, none) => s.endEntry r e.n stCopyError ceOff.toNat 0
      | (s, some c) => (s.updEntry r e.n fun e => { e with st := .begun }).feed c (.copy r e.n) e.desc (s.streamHmk r)))

/-! ## Disabling a ring (12 R386) -/

/-- A write of 0 to CTH_RINGn_CFG.EN: fetched entries that have not begun are flushed. While it drains, the write withdraws a
pending enable. -/
def State.ringDisable (s : State) (r : RingId) : State :=
  if s.fld .cthRingCfg r.val 31 31 = 0 then s
  else if s.fld .cthRingCfg r.val 30 30 = 1 then s.setFld .cthRingCfg r.val 31 31 0
  else
    let s := (s.setFld .cthRingCfg r.val 31 31 0).setFld .cthRingCfg r.val 30 30 1
    ((s.ring r).entries.filter fun e => e.st == .fetched).foldl (fun s e => s.endEntry r e.n stFlushed 0 0) s

/-- The turn that reads the ring's descriptors when its disable arrives completes its reads: they count as fetched, and none is passed on (12
R386). -/
def State.turnEnds (s : State) (r : RingId) (host : Cells) : State :=
  if s.nextRing = some r then fetchFrom r (fun s n w => s.joinEntry r n w) 8 1024 { s.learnHost host with turn := r.val } else s

/-- RING_DISABLE. DESIGN CHOICE, log 151. -/
def execRingDisable (x : RingStop) (s : State) : Host.Outcome State Fault Refusal :=
  act s (clocked fun s => (match x.turn with | some host => s.turnEnds x.ring host | none => s).ringDisable x.ring)

end Sys2Proof.Machine
end

