-- ==== Sys2Proof/Machine/Foreman.lean ====
section
/-! DEFINITION. The foreman: launches, their benches and engines, release and the ends of kernels (11 R356-R366; 08 R244; 17 R496). -/

namespace Sys2Proof.Machine

/-! ## Alloy quarters, as engines of a slot (11 R364, 14 R440) -/

/-- Quarter `h` of the alloy engine. -/
def State.quarter (s : State) (h : HallId) : Quarter := Sp.get (fun _ => ({} : Quarter)) s.dray.quarters h.val

/-- Changes quarter `h`. -/
def State.updQuarter (s : State) (h : HallId) (f : Quarter → Quarter) : State :=
  { s with dray := { s.dray with quarters := Sp.put s.dray.quarters h.val (f (s.quarter h)) } }

/-- The quarter is in service. -/
def State.quarterOn (s : State) (h : HallId) : Bool := s.fld .alyQStatus h.val 29 29 == 1 && s.fld .alyQStatus h.val 31 31 == 0

/-- ALY_Qh_RING_CFG.EN is the quarter's enable: a still quarter's ON follows it (14, ALY registers). -/
def State.setQuarterEn (s : State) (h : HallId) (v : Nat) : State :=
  (s.setFld .alyQRingCfg h.val 31 31 v).setFld .alyQStatus h.val 29 29 v

/-- The hallmark of a quarter's slot. -/
def State.quarterHmk (s : State) (h : HallId) : BitVec 12 :=
  match (s.quarter h).slot with
  | some n => s.slotHmk n
  | none => 0

/-- Reads bytes of a quarter's ring at offset `off` from its base. -/
def State.quarterRead (s : State) (h : HallId) (off len : Nat) : State × ElOut :=
  let a := s.fld .alyQRingHi h.val 19 0 * 0x100000000 + s.fld .alyQRingLo h.val 31 7 * 128 + off
  s.endRead { eng := .quarter h, run := 1 } (s.quarterHmk h) 0 0 (BitVec.ofNat 64 a) len

/-! ## Launch bodies (11 R356) -/

def lCbell (w : List W64) : BitVec 16 := BitVec.ofNat 16 (wordBits w 1 63 48)
def lTarget (w : List W64) : W32 := BitVec.ofNat 32 (wordBits w 1 31 0)
def lNpre (w : List W64) : Nat := wordBits w 2 55 52
def lNben (w : List W64) : Nat := wordBits w 2 48 40
def lPri (w : List W64) : Nat := wordBits w 2 39 38

/-- The benches of MASK, in increasing number. -/
def lMask (w : List W64) : List BenchId := (List.finRange 256).filter fun b => (w.getD (8 + b.val / 64) 0).getLsbD (b.val % 64)

/-- The engines that word 7 names. -/
def lShops (w : List W64) : List (Fin 32) := (List.finRange 32).filter fun c => (w.getD 7 0).getLsbD (32 + c.val)
def lLinks (w : List W64) : List (Fin 16) := (List.finRange 16).filter fun c => (w.getD 7 0).getLsbD (16 + c.val)
def lQuarters (w : List W64) : List HallId := (List.finRange 4).filter fun h => (w.getD 7 0).getLsbD (12 + h.val)

/-- The carters that word 7 names. -/
def lCarters (w : List W64) : List CarterId := (lShops w).map CarterId.shop ++ (lLinks w).map CarterId.link

/-- Word 7 names an engine. -/
def lEngines (w : List W64) : Bool := !((lCarters w).isEmpty && (lQuarters w).isEmpty)

/-- A reserved field of the body is not 0 (table 11.5). DEDUCED, log 66. -/
def lReserved (w : List W64) : Bool :=
  let r (k hi lo : Nat) : Bool := wordBits w k hi lo != 0
  r 1 47 32 || r 2 63 56 || r 2 51 49 || r 2 37 32 || r 2 0 0 || r 3 63 53 || r 3 31 16 || r 6 63 32 || r 7 11 0
    || r 20 62 60 || r 20 55 53 || r 20 31 16 || r 21 62 60 || r 21 55 53 || r 21 31 16 || r 22 63 52 || (!lEngines w && r 22 51 0)
    || (List.range 9).any fun k => w.getD (23 + k) 0 != 0

/-- R357, the case of R277: the hallmark's context is off or of another function. DEDUCED, log 68. -/
def State.contextRefuses (s : State) (r : RingId) : Bool :=
  match (s.context (s.streamHmk r)).2 with
  | none => true
  | some (w0, w1) => !w0.getLsbD 63 || wbits w1 21 16 != s.streamFn r

/-- A local ring of word `k`: not a multiple of 128, or a doorbell bell of some rank that the hallmark may not use. -/
def State.localRefuses (s : State) (h : BitVec 12) (w : List W64) (k : Nat) : Bool :=
  wordBits w k 63 63 == 1 &&
    (wordBits w k 52 32 % 128 != 0 ||
      (List.range (lNben w)).any fun r => !s.bellAllows h (BitVec.ofNat 16 (wordBits w k 15 0 + r)))

/-- R357: the launch is refused. DEDUCED, log 67. -/
def State.launchRefused (s : State) (r : RingId) (e : SEntry) : Bool :=
  let w := e.words
  lReserved w || wordBits w 2 5 4 > 1 || lNben w == 0 || decide ((lMask w).length < lNben w) || decide (e.pre < lNpre w)
    || !s.bellAllows (s.streamHmk r) (lCbell w) || s.contextRefuses r
    || decide (wordBits w 2 31 16 < s.fld .fmnFwend 0 15 0)
    || s.localRefuses (s.streamHmk r) w 20 || s.localRefuses (s.streamHmk r) w 21
    || (lCarters w).any (fun c => !s.carterOn c) || (lQuarters w).any fun h => !s.quarterOn h

/-! ## A launch that ends without a release (11 R355, R357; 10 R318) -/

/-- Launch copies of the launch in entry `n` that have not begun are refused; those begun hand out no further part. -/
def State.endCopies (s : State) (r : RingId) (l : SEntry) : State :=
  ((s.ring r).entries.filter fun e => e.launchCopy && l.needs e.n).foldl (fun s e =>
    if e.st = .fetched then s.endEntry r e.n stRefused 0 0
    else if e.st = .begun ∧ !e.parts.isEmpty then
      let s := s.updEntry r e.n fun e => { e with parts := [] }
      if e.running.isEmpty then s.endEntry r e.n stRefused 0 0 else s
    else s) s

/-- A slot's launches wait no longer. -/
def State.unqueue (s : State) (n : SlotId) : State := { s with launchq := s.launchq.filter (· != n) }

/-- The bench becomes free: its core is still, its pending interrupts and results are gone, its store mode follows HMK_OST (08
R242), and the governor starts dross work at its duty (15 R459), unless a spare switch is pending (05 R176). -/
def State.freeBench (s : State) (b : BenchId) : State :=
  let duty := min 8 (Config.forgeActivity b.val s.draws)
  let cold := s.divWanted (shopOf b).val == 4 || s.fld .pwrGov 0 7 7 == 0
  let seized := s.fld .benXstat b.val 31 31 == 1
  let dross := decide (0 < duty) && !cold && !seized && s.fld .fmnBenchCtl b.val 28 28 == 1 && (s.bench b).forge.spare.isNone
  let ost := (s.reg ⟨.hmkOst, 0, b.val / 32⟩).getLsbD (b.val % 32)
  s.drawn.updBench b fun x =>
    { x with
      slot := none, watch := none, handed := false, openStore := ost
      core := { x.core with
        running := false, stopping := false, stall := none, pendingScalar := [], results := [], deferLathe := none,
        deferForge := [], pendPreempt := false, pendNotice := false, pendCount := false, pendBell := false }
      forge := { x.forge with dross, duty := if dross then duty else 0 } }

/-- The engines bound to slot `n` are unbound (11 R366). -/
def State.unbind (s : State) (n : SlotId) : State :=
  let s := { s with carters := s.carters.map fun (x : Nat × Carter) => (x.1, if x.2.slot = some n then { x.2 with slot := none } else x.2) }
  { s with
    dray := { s.dray with
      quarters := s.dray.quarters.map fun (x : Nat × Quarter) => (x.1, if x.2.slot = some n then { x.2 with slot := none } else x.2) } }

/-- The launch in slot `n` ends with a status and has released no bench. -/
def State.dropLaunch (s : State) (n : SlotId) (status : Byte) : State :=
  let k := s.kernel n
  let s := (k.benches.filter (s.ofSlot n)).foldl State.freeBench ((s.unqueue n).unbind n)
  let s := (s.setKernel n {}).setFld .fmnSlotStat n.val 27 24 status.toNat
  match s.entry k.ring k.n with
  | none => s
  | some l => (s.endEntry k.ring k.n status 0 0).endCopies k.ring l

/-- LAUNCH: it is checked, and waits for its benches and engines. A launch that has lost a prerequisite ends with REFUSED. -/
def launch (r : RingId) (s : State) : State :=
  match (s.ring r).slot with
  | none => s
  | some n =>
    let k := s.kernel n
    let lost : Bool :=
      match s.entry r k.n with
      | some l => (k.phase == .waiting || k.phase == .assigned) && l.preFailed
      | none => false
    if lost then s.dropLaunch n stRefused
    else
      match (s.ring r).entries.find? fun e => e.type == 1 && e.st == .fetched && e.preFailed with
      | some e => (s.endEntry r e.n stRefused 0 0).endCopies r e
      | none =>
        beginEntry r (fun e => e.type == 1) (fun e s =>
          if s.launchRefused r e then ((s.context (s.streamHmk r)).1.endEntry r e.n stRefused 0 0).endCopies r e
          else
            let s := (s.updEntry r e.n fun e => { e with st := .begun }).setKernel n
              { phase := .waiting, ring := r, n := e.n, words := e.words }
            { s with launchq := s.launchq ++ [n] }) s

/-- LAUNCH. -/
def execLaunch (r : RingId) (s : State) : Host.Outcome State Fault Refusal := act s (clocked (launch r))

/-! ## Assignment (11 R358, R364) -/

/-- The bench may be assigned: enabled, not seized, excluded or assigned. -/
def State.benchFree (s : State) (b : BenchId) : Bool :=
  let x := s.bench b
  x.slot.isNone && !x.excluded && s.fld .fmnBenchCtl b.val 28 28 == 1 && s.fld .fmnBenchCtl b.val 30 30 == 0
    && s.fld .benXstat b.val 31 31 == 0

/-- A launch waits for an engine that is bound to another slot. -/
def State.engineWaits (s : State) (n : SlotId) : Bool :=
  let w := (s.kernel n).words
  let other (x : Option SlotId) : Bool := match x with | none => false | some m => m != n
  (lCarters w).any (fun c => other (s.carter c).slot) || (lQuarters w).any fun h => other (s.quarter h).slot

/-- Preempted kernels, in decreasing priority. -/
def State.preempted (s : State) : List SlotId :=
  let l := (List.finRange 64).filter fun n => (s.kernel n).phase == .preempted
  [3, 2, 1, 0].flatMap fun p => l.filter fun n => lPri (s.kernel n).words == p

/-- The waiting launches in the order in which they are served: decreasing PRI, then order of arrival. -/
def State.served (s : State) : List SlotId :=
  [3, 2, 1, 0].flatMap fun p => s.launchq.filter fun n => lPri (s.kernel n).words == p && !s.engineWaits n

/-- The benches that each waiting launch holds, in the order of service: the lowest-numbered free benches of its MASK that none
before it holds, up to NBEN. A preempted kernel whose benches are all free goes before the launches of its own or a lower PRI.
DEDUCED, log 69. -/
def holds (s : State) : List SlotId → List SlotId → List BenchId → List (SlotId × List BenchId) → List (SlotId × List BenchId)
  | _, [], _, acc => acc
  | pre, n :: r, taken, acc =>
    let p := lPri (s.kernel n).words
    let first := (pre.filter fun m =>
      decide (p ≤ lPri (s.kernel m).words) && (s.kernel m).benches.all fun b => s.benchFree b && !taken.contains b).flatMap
        fun m => (s.kernel m).benches
    let taken := taken ++ first
    let l := ((lMask (s.kernel n).words).filter fun b => s.benchFree b && !taken.contains b).take (lNben (s.kernel n).words)
    holds s pre r (taken ++ l) (acc ++ [(n, l)])

/-- The benches that slot `n`'s launch holds. -/
def State.benchesHeld (s : State) (n : SlotId) : List BenchId :=
  match (holds s s.preempted s.served [] []).find? fun x => x.1 = n with
  | some x => x.2
  | none => []

/-- BENCH_ASSIGN: NBEN benches at once, or none; and the launch's engines. Dross work stops on an assigned bench (05 R176), and the device
leaves Nap (15 table 15.5). DEDUCED, log 70. -/
def benchAssign (n : SlotId) (s : State) : State :=
  let k := s.kernel n
  let l := s.benchesHeld n
  let lost : Bool := match s.entry k.ring k.n with | some e => e.preFailed | none => true
  if k.phase ≠ .waiting ∨ !s.launchq.contains n ∨ lost ∨ s.engineWaits n ∨ l.length ≠ lNben k.words then s
  else
    let s := s.setFld .pwrStat 0 31 30 0
    let s := l.foldl (fun s b => s.updBench b fun x => { x with slot := some n, forge := { x.forge with dross := false, duty := 0 } }) s
    let s := (lCarters k.words).foldl (fun s c => s.updCarter c fun x => { x with slot := some n }) s
    let s := (lQuarters k.words).foldl (fun s h => s.updQuarter h fun q => { q with slot := some n }) s
    (s.unqueue n).setKernel n { k with phase := .assigned, benches := l }

/-- BENCH_ASSIGN. -/
def execBenchAssign (n : SlotId) (s : State) : Host.Outcome State Fault Refusal := act s (clocked (benchAssign n))

/-! ## The release sequence (11 R359) -/

/-- Steps 1 to 3 of R359 on a bench: what its release keeps is its secret, its counter and what only a bench reset clears. -/
def Bench.cleared (x : Bench) : Bench :=
  { slot := x.slot, openStore := x.openStore, excluded := x.excluded
    core := { cycle := x.core.cycle, xkeyBench := x.core.xkeyBench, xkeyDraw := x.core.xkeyDraw, countDone := x.core.countDone }
    forge := { rowErr := x.forge.rowErr, inject := x.forge.inject, lastArray := x.forge.lastArray, granted := x.forge.granted, spare := x.forge.spare } }

/-- Loads the bench firmware into program-store words 0 to LEN/8 - 1 (17 R496). -/
def Bench.loadFirmware (x : Bench) (payload : List Byte) : Bench :=
  let n := payload.length / 8
  { x with
    ps := (List.range n).map fun k => (k, BitVec.ofNat 36 (leVal ((payload.drop (8 * k)).take 8)))
    psBlocks := List.range ((n + 1023) / 1024) }

/-- The firmware's part of step 4: its words, the Master bank, BEN_SGUARD_M, and BEN_PGUARD.MLIM at least FWEND. -/
def State.loadFirmware (s : State) (b : BenchId) : State :=
  match Sp.find s.sec.current 2 with
  | none => s
  | some i =>
    let xsp := wbits i.entry 37 16
    let xsl := wbits i.entry 59 38
    let s := s.updBench b fun x =>
      let x := x.loadFirmware i.payload
      { x with core := { x.core with mxbase := BitVec.ofNat 16 (wbits i.entry 15 0), mxsp := BitVec.ofNat 64 xsp, mxsl := BitVec.ofNat 64 xsl } }
    let s := (s.setFld .benSguardM b.val 8 0 ((xsl - 256) / 4096)).setFld .benSguardM b.val 25 16 ((xsp + 4095) / 4096)
    s.setFld .benPguard b.val 15 0 (max (s.fld .benPguard b.val 15 0) (s.fld .fmnFwend 0 15 0))

/-- Table 11.6: the core of the bench of rank `r`. -/
def launchCore (w : List W64) (r : Nat) (c : Core) : Core :=
  let c := c.wr 1 (BitVec.ofNat 64 r)
  let c := c.wr 2 (BitVec.ofNat 64 (wordBits w 1 63 48 * 2 ^ 32 + lNben w))
  let c := (List.range 8).foldl (fun (c : Core) k => c.wr (BitVec.ofNat 5 (3 + k)) (w.getD (12 + k) 0)) c
  { c with
    pc := BitVec.ofNat 16 (wordBits w 2 31 16)
    plb := wordBits w 2 7 7 == 1
    len := wordBits w 2 6 6 == 1
    pl := BitVec.ofNat 2 (wordBits w 2 5 4)
    ien := BitVec.ofNat 4 (wordBits w 2 3 1 * 2) }

/-- Table 11.6: the registers of the bench. -/
def State.launchRegs (s : State) (b : BenchId) (w : List W64) : State :=
  let put (s : State) (k : RegKind) (v : Nat) : State := s.setReg ⟨k, b.val, 0⟩ (BitVec.ofNat 32 v &&& maskOf (fun _ => true) k.fields)
  let s := put s .benXjSp (wordBits w 4 31 0)
  let s := put s .benXjSl (wordBits w 4 63 32)
  let s := put s .benXjBase (wordBits w 3 15 0)
  let s := put s .benPguard (wordBits w 5 63 32)
  let s := put s .benSguardJ (wordBits w 5 31 0)
  put s .benXdeleg (wordBits w 6 31 0)

/-- R365: the local rings of bench carters 2b and 2b + 1 of the bench of rank `r`. -/
def State.launchRings (s : State) (b : BenchId) (w : List W64) (r : Nat) : State :=
  [0, 1].foldl (fun s k =>
    let c : CarterId := .bench ⟨2 * b.val + k % 2, by omega⟩
    let f (hi lo : Nat) := wordBits w (20 + k) hi lo
    let s := (s.setCarterFld c 0 31 7 (f 52 32 / 128)).setCarterFld c 1 19 0 0
    let s := (s.setCarterFld c 2 19 16 (f 59 56)).setCarterFld c 2 15 0 ((f 15 0 + r) % 65536)
    (s.setCarterFld c 2 31 31 (f 63 63)).updCarter c fun x => { x with seen := 0, reread := true, err := false }) s

/-- Steps 1 to 4 for the bench of rank `r`. -/
def State.writeBench (s : State) (w : List W64) (b : BenchId) (r : Nat) : State :=
  let s := s.updBench b Bench.cleared
  let s := (s.launchRegs b w).loadFirmware b
  (s.launchRings b w r).updCore b (launchCore w r)

/-- Bytes of DVA `a` under hallmark `h`, as the foreman reads the ring table: a walk of its own, and no wait; none: it cannot be
read. DEDUCED, log 71. -/
def State.tableRead (s : State) (h : BitVec 12) : List W64 → State × Option (List Byte)
  | [] => (s, some [])
  | a :: r =>
    match s.walk h a .read with
    | (s, .fault _) => (s, none)
    | (s, .leaf e page pages) =>
      let t := s.leafTarget (s.ctxWord h) e page pages a
      let (s, d) : State × Option (List Byte) :=
        match t with
        | .dpa x =>
          match s.dpaRead { hmk := h, smask := s.smaskOf h } x 1 (wbits e 9 8 == 1) with
          | (s, .ok d) => (s, some d)
          | (s, .bad _) => (s, none)
        | far => (s, some (s.farBytes far 1))
      match d with
      | none => (s, none)
      | some d =>
        match s.tableRead h r with
        | (s, some l) => (s, some (d ++ l))
        | (s, none) => (s, none)

/-- Entry of the ring table for one engine: words 0 and 1 (table 11.9). -/
def tableEntryBad (w : List W64) : Bool :=
  wordBits w 0 63 52 != 0 || wordBits w 0 51 0 % 128 != 0 || wordBits w 1 63 32 != 0 || wordBits w 1 30 20 != 0

/-- R364 at step 4: the ring table is read, and each engine's ring registers written; false: it ends the launch. -/
def State.bindRings (s : State) (n : SlotId) : State × Bool :=
  let w := (s.kernel n).words
  if !lEngines w then (s, true)
  else
    let engines : List (CarterId ⊕ HallId) := (lCarters w).map .inl ++ (lQuarters w).map .inr
    let base := BitVec.ofNat 64 (wordBits w 22 51 0)
    match s.tableRead (s.slotHmk n) ((List.range (16 * engines.length)).map fun k => base + BitVec.ofNat 64 k) with
    | (s, none) => (s, false)
    | (s, some d) =>
      let entry (k : Nat) : List W64 := wordsOf 2 (d.drop (16 * k))
      if (List.range engines.length).any fun k => tableEntryBad (entry k) then (s, false)
      else
        ((List.range engines.length).foldl (fun s k =>
          let e := entry k
          let base := wordBits e 0 51 0
          match engines[k]? with
          | none => s
          | some (.inl c) =>
            let s := (s.setCarterFld c 0 31 7 (base / 128 % 0x2000000)).setCarterFld c 1 19 0 (base / 0x100000000)
            let s := (s.setCarterFld c 2 19 16 (wordBits e 1 19 16)).setCarterFld c 2 15 0 (wordBits e 1 15 0)
            (s.setCarterFld c 2 31 31 (wordBits e 1 31 31)).updCarter c fun x => { x with seen := 0, reread := true, err := false }
          | some (.inr h) =>
            let s := (s.setFld .alyQRingLo h.val 31 7 (base / 128 % 0x2000000)).setFld .alyQRingHi h.val 19 0 (base / 0x100000000)
            let s := (s.setFld .alyQRingCfg h.val 19 16 (wordBits e 1 19 16)).setFld .alyQRingCfg h.val 15 0 (wordBits e 1 15 0)
            (s.setQuarterEn h (wordBits e 1 31 31)).updQuarter h fun q =>
              { q with seen := 0, reread := true, err := false }) s, true)

/-- 08 R244: the data caches of the kernel's benches and the shop caches of their shops are invalidated. -/
def State.coldCaches (s : State) (bs : List BenchId) : State :=
  let s := bs.foldl (fun s b => s.updBench b fun x => { x with dcache := [] }) s
  bs.foldl (fun s b => s.setShopCache (shopOf b) []) s

/-- Every prerequisite of the launch has completed (01 R28). -/
def State.preDone (s : State) (k : Kernel) : Bool :=
  match s.entry k.ring k.n with
  | some l => !l.preFailed && (s.ring k.ring).entries.all fun e => !l.needs e.n
  | none => false

/-- BENCH_RELEASE: steps 1 to 5 of R359 once, then the release when the prerequisites have completed. -/
def benchRelease (n : SlotId) (s : State) : State :=
  let k := s.kernel n
  if k.phase ≠ .assigned then s
  else
    let p : State × Bool :=
      if k.written.isEmpty then
        match s.bindRings n with
        | (s, false) => (s.dropLaunch n stRefused, false)
        | (s, true) =>
          let s := (k.benches.zip (List.range k.benches.length)).foldl (fun s x => s.writeBench k.words x.1 x.2) s
          ((s.setKernel n { k with written := k.benches }).setBell (lCbell k.words) 0, true)
      else (s, true)
    if p.2 && p.1.preDone (p.1.kernel n) then
      let s := p.1.coldCaches k.benches
      let s := (s.updKernel n fun k => { k with phase := .running, order := s.releases }).setSlotState n 2
      { s with releases := s.releases + 1 }
    else p.1

/-- BENCH_RELEASE. -/
def execBenchRelease (n : SlotId) (s : State) : Host.Outcome State Fault Refusal := act s (clocked (benchRelease n))

/-- Wakes a bench: A-cycles have passed while it was still, and its first instruction is fetched anew (02 R53); a foreman notice that is owed arrives; a halt that is asked for holds. -/
def State.wake (s : State) (n : SlotId) (b : BenchId) : State :=
  let k := s.kernel n
  let s := (s.updBench b fun x =>
    { x with
      handed := false
      core := { x.core with fetchDue := true, lookahead := [], running := true, stopping := false, halted := false, cycle := x.core.cycle + Config.stallCycles s.draws } }).drawn
  let s :=
    if k.owed.contains b then
      (s.updBench b fun x =>
        let x := x.writeStore (wordBits k.words 3 52 32) (leBytes 8 k.notice.toNat)
        { x with core := { x.core with pendNotice := true } }).updKernel n fun k => { k with owed := k.owed.filter (· != b) }
    else s
  if s.fld .benDbgCtl b.val 0 0 = 1 then s.halt b 1 else s

/-- GROUP_WAKE: up to eight benches of the kernel fetch their first instruction, or go on (01 R32). DEDUCED, log 72. -/
def groupWake (n : SlotId) (s : State) : State :=
  let k := s.kernel n
  if k.phase ≠ .running ∧ k.phase ≠ .resuming then s
  else
    let l := (k.benches.filter fun b => !k.woken.contains b).take 8
    let s := (l.filter (s.ofSlot n)).foldl (fun s b => s.wake n b) s
    s.updKernel n fun k =>
      let woken := k.woken ++ l
      { k with woken, phase := if k.phase = .resuming ∧ woken.length = k.benches.length then .running else k.phase }

/-- GROUP_WAKE. -/
def execGroupWake (n : SlotId) (s : State) : Host.Outcome State Fault Refusal := act s (clocked (groupWake n))

end Sys2Proof.Machine
end

