-- ==== Sys2Proof/Machine/KernelEnd.lean ====
section
/-! DEFINITION. The ends of kernels, preemption, state images and notices (11 R360-R371). -/

namespace Sys2Proof.Machine

/-! ## A bench that stops (11 R360, R361) -/

/-- The core of a bench stops if it stands at an interrupt point; its pending interrupts are discarded. -/
def State.coreStop (s : State) (b : BenchId) : State :=
  let x := s.bench b
  if x.core.running && !x.atPoint then s
  else
    (s.withdraw (.core b)).updCore b fun c =>
      { c with running := false, stall := none, pendPreempt := false, pendNotice := false, pendCount := false, pendBell := false }

/-- DEFERRED_DISCARDED: UNIT the bench, the cause code, and the EQ value of its frame. -/
def State.discarded (s : State) (b : BenchId) (code : Byte) (eq : Nat) : State :=
  let silent := match (s.bench b).slot with | some n => (s.kernel n).silent | none => false
  let r : ErrRec := { src := 1, event := 3, unit_ := BitVec.ofNat 16 b.val, w2 := code.setWidth 64, w3 := BitVec.ofNat 64 eq }
  if silent then s.recordPf (s.benchHmk b) r else s.recordHmk (s.benchHmk b) r

/-- R360: a queue frozen by a deferred cause, its cause, and an operation held are discarded, with a record. DEDUCED, log 73. -/
def State.discardFrozen (s : State) (b : BenchId) : State :=
  let x := s.bench b
  let s :=
    if x.lathe.frozen then
      (s.discarded b x.lathe.cause 0).updBench b fun x =>
        { x with core := { x.core with deferLathe := none }, lathe := { x.lathe with queue := [], frozen := false, vpi := 0 } }
    else s
  if x.forge.frozen then
    (s.discarded b x.forge.cause 1).updBench b fun x =>
      let y := x.forge
      { x with
        core := { x.core with deferForge := [] }
        forge := { y with
          queue := [], frozen := false
          array := if y.arrayHeld then none else y.array, arrayHeld := false
          ladle := if y.ladleHeld then none else y.ladle, ladleHeld := false
          loader := if y.loaderHeld then none else y.loader, loaderHeld := false } }
  else s

/-- What waits in a bench's forge and its executors is gone. -/
def Forge.emptied (y : Forge) : Forge :=
  { y with
    queue := [], frozen := false, arrayNext := none, loaderNext := none, ladleNext := none, array := none, arrayHeld := false
    loader := none, loaderHeld := false, ladle := none, ladleHeld := false }

/-- R361: the bench's queues are discarded, and its forge and ladle stop. -/
def State.discardAll (s : State) (b : BenchId) : State :=
  ((s.withdraw (.lathe b)).withdraw (.ladle b)).updBench b fun x =>
    { x with
      core := { x.core with deferLathe := none, deferForge := [] }
      lathe := { x.lathe with queue := [], frozen := false, wait := none, vpi := 0 }
      forge := x.forge.emptied }

/-- A request of the bench's core, lathe or ladle is in flight. -/
def State.benchBusy (s : State) (b : BenchId) : Bool :=
  s.inFlight fun w => w.eng == .core b || w.eng == .lathe b || w.eng == .ladle b

/-- The two carters of a bench. -/
def benchCarters (b : BenchId) : List CarterId := [.bench ⟨2 * b.val, by omega⟩, .bench ⟨2 * b.val + 1, by omega⟩]

/-- The carters that serve local rings for the kernel of slot `n`. -/
def State.kernelCarters (s : State) (n : SlotId) : List CarterId :=
  let k := s.kernel n
  (k.benches.filter (s.ofSlot n)).flatMap benchCarters ++ (lCarters k.words).filter fun c => (s.carter c).slot == some n

/-- The quarters bound to slot `n`. -/
def State.kernelQuarters (s : State) (n : SlotId) : List HallId :=
  (lQuarters (s.kernel n).words).filter fun h => (s.quarter h).slot == some n

/-- The local rings of the carters stop under R529, and the kernel notes those that were enabled. -/
def State.stopRings (s : State) (n : SlotId) (cs : List CarterId) : State :=
  let on := cs.filter fun c => s.carterFld c 2 31 31 == 1
  (cs.foldl (fun s c => s.localDisable c) s).updKernel n fun k => { k with rings := k.rings ++ on }

/-- A quarter's ring stops at an abort: its collective leaves it, and HEAD stays. DEDUCED, log 74. -/
def State.stopQuarter (s : State) (n : SlotId) (h : HallId) : State :=
  let on := s.fld .alyQRingCfg h.val 31 31 == 1
  let s := ((s.setQuarterEn h 0).withdraw (.quarter h)).updQuarter h fun q => { q with coll := none, ringWait := none, reread := true }
  if on then s.updKernel n fun k => { k with quarters := k.quarters ++ [h] } else s

/-- The local ring of a carter is still: no run, no request in flight. -/
def State.ringStill (s : State) (c : CarterId) : Bool :=
  (s.carter c).loc.isEmpty && s.carterFld c 3 24 24 == 0

/-- The bench of an ending kernel has stopped; `kill`: at once. -/
def State.benchStopped (s : State) (b : BenchId) (kill : Bool) : Bool :=
  let x := s.bench b
  !x.core.running && x.lathe.queue.isEmpty && x.forge.ops.isEmpty && (benchCarters b).all s.ringStill
    && (!kill || !s.benchBusy b)

/-! ## The end (11 R360, R366) -/

/-- UNRUN_DESCRIPTORS of a ring whose control block begins with `cb`. A Function Level Reset's goes to the PF alone (12 R396). -/
def State.unrun (s : State) (k : Kernel) (h : BitVec 12) (unit_ rqk : Nat) (cb : List Byte) : State :=
  let w := wordsOf 2 cb
  let d : W32 := (w.getD 0 0).setWidth 32 - (w.getD 1 0).setWidth 32
  let r : ErrRec := { src := 1, event := 2, unit_ := BitVec.ofNat 16 unit_, w2 := BitVec.ofNat 64 rqk, w3 := d.setWidth 64 }
  if d = 0 then s else if k.silent then s.recordPf h r else s.recordHmk h r

/-- Disables a carter's local ring at the end of its kernel, with its record; false: its control block is not read yet. That of a ring which
cannot be read is not written. -/
def State.closeRing (s : State) (n : SlotId) (c : CarterId) : State × Bool :=
  let k := s.kernel n
  let shut (s : State) : State := (s.setCarterFld c 2 31 31 0).updKernel n fun k => { k with rings := k.rings.filter (· != c) }
  if !(s.carterFld c 2 31 31 == 1 || k.rings.contains c) then (s, true)
  else if (s.carter c).ringWait.isSome then (s, false)
  else
    match s.ringRead c 0 16 with
    | (s, .ok d) => (shut (s.unrun k (s.localHmk c) (engineId (.carter c)).2 (engineId (.carter c)).1 d), true)
    | (s, .stop (.wait w a)) => (s.updCarter c fun x => { x with ringWait := some ⟨.close, w, a⟩ }, false)
    | (s, .stop _) => (shut s, true)

/-- Disables a quarter's ring at the end of its kernel, with its record; false: its control block is not read yet. -/
def State.closeQuarter (s : State) (n : SlotId) (q : HallId) : State × Bool :=
  let k := s.kernel n
  let shut (s : State) : State := (s.setQuarterEn q 0).updKernel n fun k => { k with quarters := k.quarters.filter (· != q) }
  if !(s.fld .alyQRingCfg q.val 31 31 == 1 || k.quarters.contains q) then (s, true)
  else if (s.quarter q).ringWait.isSome then (s, false)
  else
    match s.quarterRead q 0 16 with
    | (s, .ok d) => (shut (s.unrun k (s.quarterHmk q) (16 + q.val) 4 d), true)
    | (s, .stop (.wait w a)) => (s.updQuarter q fun x => { x with ringWait := some ⟨.close, w, a⟩ }, false)
    | (s, .stop _) => (shut s, true)

/-- Closes rings in turn; true: every one is closed. -/
def closeAll {α : Type} (f : State → α → State × Bool) (l : List α) (s : State) : State × Bool :=
  l.foldl (fun p x => match f p.1 x with | (s, ok) => (s, p.2 && ok)) (s, true)

/-- A bench of an ending kernel that has stopped becomes free, its carters' rings disabled (11 R360, R366). -/
def State.benchEnd (n : SlotId) (kill : Bool) (s : State) (b : BenchId) : State :=
  if !s.benchStopped b kill then s
  else
    match closeAll (fun s c => s.closeRing n c) (benchCarters b) s with
    | (s, true) => s.freeBench b
    | (s, false) => s

/-- A quarter of an ending kernel is still: it holds no collective, and no request of it is in flight. -/
def State.quarterStill (s : State) (q : HallId) : Bool := (s.quarter q).coll.isNone && !s.inFlight fun w => w.eng == .quarter q

/-- Every bench is free and every engine still: engines are unbound, and the launch's entry ends. The slot of a stream that has halted in the
meantime is HALTED (11 R354). -/
def State.endKernel (s : State) (n : SlotId) : State :=
  let k := s.kernel n
  let s := (s.unqueue n).unbind n
  let s := ((s.setKernel n {}).setFld .fmnSlotStat n.val 27 24 k.status.toNat).setSlotState n (if s.ringHalted k.ring then 6 else 1)
  match s.entry k.ring k.n with
  | none => s
  | some l => (s.endEntry k.ring k.n k.status k.code.toNat 0).endCopies k.ring l

/-- One look of the foreman at a kernel that ends: cores stop at interrupt points, work is discarded or runs out, each bench becomes free as it
has stopped, and when nothing is left the kernel has ended. -/
def State.endProgress (s : State) (n : SlotId) (kill : Bool) : State :=
  let k := s.kernel n
  let bs := k.benches.filter (s.ofSlot n)
  let s := bs.foldl State.coreStop s
  let s :=
    if kill then
      let s := bs.foldl State.discardAll (s.stopRings n (s.kernelCarters n))
      (s.kernelQuarters n).foldl (fun s h => s.stopQuarter n h) s
    else bs.foldl State.discardFrozen s
  let s := bs.foldl (State.benchEnd n kill) s
  if (k.benches.any (s.ofSlot n)) || !((s.kernelCarters n).all s.ringStill) || !((s.kernelQuarters n).all s.quarterStill) then s
  else
    match closeAll (fun s c => s.closeRing n c) (s.kernelCarters n) s with
    | (s, a) =>
      match closeAll (fun s q => s.closeQuarter n q) (s.kernelQuarters n) s with
      | (s, b) => if a && b then s.endKernel n else s

/-- KERNEL_END: CBELL meets CTARGET, and the kernel of slot `n` ends; or a kernel that is ending goes on doing so. -/
def kernelEnd (n : SlotId) (s : State) : State :=
  let k := s.kernel n
  match k.phase with
  | .ending kill => s.endProgress n kill
  | .running =>
    if meets (s.bell (lCbell k.words)) (lTarget k.words) then
      let s := ((s.updKernel n fun k => { k with phase := .ending false }).setSlotState n 3).stopCores (k.benches.filter (s.ofSlot n))
      s.endProgress n false
    else s
  | _ => s

/-- KERNEL_END. -/
def execKernelEnd (n : SlotId) (s : State) : Host.Outcome State Fault Refusal := act s (clocked (kernelEnd n))

/-- KLIM_LAPSE: the time limit counts while the kernel runs and while it ends (11 R361). -/
def klimLapse (n : SlotId) (s : State) : State :=
  let k := s.kernel n
  let counts : Bool := match k.phase with | .running => !k.woken.isEmpty | .ending kill => !kill | _ => false
  if wordBits k.words 2 15 8 ≠ 0 ∧ counts then s.killKernel n stTimeout 0 else s

/-- KLIM_LAPSE. -/
def execKlimLapse (n : SlotId) (s : State) : Host.Outcome State Fault Refusal := act s (clocked (klimLapse n))

/-- SLOT_ABORT: a write of 1 to FMN_SLOTn_CTL.ABORT. -/
def State.slotAbort (s : State) (n : SlotId) : State := (s.unqueue n).killKernel n stHostAbort 0

/-- SLOT_ABORT. -/
def execSlotAbort (n : SlotId) (s : State) : Host.Outcome State Fault Refusal := act s (clocked fun s => s.slotAbort n)

/-! ## Foreman notice (11 R371) -/

/-- A write of 1 to FMN_SLOTn_CTL.NOTICE: running benches receive the word; to the others it is owed. -/
def State.slotNotice (s : State) (n : SlotId) : State :=
  let k := s.kernel n
  let v := s.reg ⟨.fmnSlotNotice, n.val, 0⟩
  let live : Bool := match k.phase with | .running | .preempting | .preempted | .resuming => true | _ => false
  if !live then s
  else
    let runs (b : BenchId) : Bool := s.ofSlot n b && (s.bench b).core.running
    let s := (k.benches.filter runs).foldl (fun s b => s.updBench b fun x =>
      let x := x.writeStore (wordBits k.words 3 52 32) (leBytes 8 v.toNat)
      { x with core := { x.core with pendNotice := true } }) s
    s.setKernel n { k with notice := v, owed := k.benches.filter fun b => !runs b }

/-- SLOT_NOTICE. -/
def execSlotNotice (n : SlotId) (s : State) : Host.Outcome State Fault Refusal := act s (clocked fun s => s.slotNotice n)

/-! ## Preemption (11 R367, R368) -/

/-- FMN_SLOTn_IMG. -/
def State.slotImage (s : State) (n : SlotId) : Nat :=
  s.fld .fmnSlotImgHi n.val 15 0 * 0x100000000 + s.fld .fmnSlotImgLo n.val 31 22 * 0x400000

/-- A slot's kernel is preempted: Preempt becomes pending on each bench. A bench that has not been woken is already still. -/
def State.preempt (s : State) (n : SlotId) : State :=
  let k := s.kernel n
  if (k.phase ≠ .running ∧ k.phase ≠ .resuming) ∨ s.slotImage n = 0 then s
  else
    let s := (s.updKernel n fun k => { k with phase := .preempting }).setSlotState n 4
    let s := s.stopRings n ((lCarters k.words).filter fun c => (s.carter c).slot == some n)
    (k.benches.filter (s.ofSlot n)).foldl (fun s b =>
      if (s.bench b).core.running then s.updCore b fun c => { c with pendPreempt := true }
      else (s.updBench b fun x => { x with handed := true }).stopRings n (benchCarters b)) s

/-- SLOT_PREEMPT: a write of 1 to FMN_SLOTn_CTL.PREEMPT. -/
def execSlotPreempt (n : SlotId) (s : State) : Host.Outcome State Fault Refusal := act s (clocked fun s => s.preempt n)

/-- The better choice of AUTO between two kernels: lower PRI, and the more recently released among equals. -/
def State.autoBefore (s : State) (m n : SlotId) : Bool :=
  let a := s.kernel m
  let b := s.kernel n
  decide (lPri a.words < lPri b.words) || (lPri a.words == lPri b.words && decide (b.order < a.order))

/-- The kernel that AUTO preempts for the waiting launch of slot `n`. -/
def State.autoVictim (s : State) (n : SlotId) : Option SlotId :=
  let w := (s.kernel n).words
  let c := (List.finRange 64).filter fun m =>
    ((s.kernel m).phase == .running || (s.kernel m).phase == .resuming) && decide (lPri (s.kernel m).words < lPri w) && s.slotImage m != 0
      && (s.kernel m).benches.any fun b => (lMask w).contains b
  c.foldl (fun v m => match v with | none => some m | some x => if s.autoBefore m x then some m else v) none

/-- AUTO_PREEMPT: for the first launch, in order of service, that finds a kernel to preempt. -/
def autoPreempt (s : State) : State :=
  if s.fld .fmnCfg 0 31 31 = 0 then s
  else
    match (s.served.filter fun n => decide ((s.benchesHeld n).length < lNben (s.kernel n).words)).findSome? s.autoVictim with
    | some m => s.preempt m
    | none => s

/-- AUTO_PREEMPT. -/
def execAutoPreempt (s : State) : Host.Outcome State Fault Refusal := act s (clocked autoPreempt)

/-- Accepted operations that have not begun, and a PLOAD that starts again, return to the front of the forge queue in their order (05 R162; 07
R231). A PLOAD that a cause holds stays with it. -/
def Forge.recall (y : Forge) : Forge :=
  let l := y.arrayNext.toList ++ y.loaderNext.toList ++ y.ladleNext.toList ++ if y.loaderHeld then [] else y.loader.toList
  let insert (l : List Entry) (e : Entry) : List Entry := l.takeWhile (fun d => d.seq < e.seq) ++ [e] ++ l.dropWhile fun d => d.seq < e.seq
  { y with queue := l.foldl insert [] ++ y.queue, arrayNext := none, loaderNext := none, ladleNext := none
           loader := if y.loaderHeld then y.loader else none }

/-- BENCH_HANDOVER: the Master handler of Preempt hands the bench over, and the lathe, the forge, the ladle and the rings stop.
DEDUCED, log 75. -/
def benchHandover (b : BenchId) (s : State) : State :=
  let c := (s.bench b).core
  match (s.bench b).slot with
  | none => s
  | some n =>
    if (s.kernel n).phase ≠ .preempting ∨ !s.aclock b ∨ !c.running ∨ c.halted ∨ c.pl ≠ 2 ∨ c.pendPreempt ∨ c.stall.isSome then s
    else
      let s := s.updBench b fun x =>
        { x with
          handed := true
          core := { x.core with running := false }
          lathe := { x.lathe with wait := none }
          forge := { x.forge.recall with
            ladle := x.forge.ladle.map fun o => { o with wait := none } } }
      (((s.withdraw (.lathe b)).land (.lathe b)).withdraw (.ladle b)).stopRings n (benchCarters b)

/-- BENCH_HANDOVER. -/
def execBenchHandover (b : BenchId) (s : State) : Host.Outcome State Fault Refusal := act s (clocked (benchHandover b))

/-! ## State images (11 R369, R370) -/

/-- Bytes of a tile memory: element `k` at bytes 4 k to 4 k + 3. -/
def tileBytes (t : Sparse W32) : Memory :=
  t.flatMap fun p => (leBytes 4 p.2.toNat).zip (List.range 4) |>.map fun x => (4 * p.1 + x.2, x.1)

/-- Bytes of a mask memory: bit `k` in bit k mod 8 of byte k / 8. -/
def maskBytes (m : Sparse Bool) : Memory :=
  m.foldl (fun (a : Memory) p => if p.2 then a.setByte (p.1 / 8) (a.byte (p.1 / 8) ||| BitVec.ofNat 8 (2 ^ (p.1 % 8))) else a) []

/-- Bytes of a written program-store block: 36 bits a word, packed. -/
def blockBytes (x : Bench) (blk : Nat) : List Byte :=
  leBytes 4608 ((List.range 1024).foldl (fun v k =>
    v + (Sp.get (fun _ => 0#36) x.ps (1024 * blk + k)).toNat * 2 ^ (36 * k)) 0)

/-- The written blocks in increasing order. -/
def Bench.blocks (x : Bench) : List Nat := (List.range 64).filter x.psBlocks.contains

/-- The image of a bench by offset (table 11.8), with its progress record `rec_`; `n` draws the area whose layout the table leaves open, and
where in it the record stands. DESIGN CHOICE, log 76. -/
def Bench.image (x : Bench) (n : Nat) (rec_ : List W64) : Memory :=
  let parts : List (Nat × Memory) :=
    [(0, x.store), (0x200000, tileBytes x.forge.tiles), (0x300000, x.forge.plates), (0x340000, x.lathe.v), (0x360000, maskBytes x.lathe.m)]
  let m := parts.foldl (fun (a : Memory) p => Sp.overlay a p.1 p.2) []
  let m := m.setBytes id 0x368000 ((List.range 0x4000).map (Config.imageByte n))
  let m := m.setBytes id (0x368000 + 8 * (Config.progressAt % 1977)) (rec_.flatMap fun w => leBytes 8 w.toNat)
  ((List.range x.blocks.length).zip x.blocks).foldl (fun (a : Memory) p => a.setBytes id (0x36C000 + 4608 * p.1) (blockBytes x p.2)) m

/-- Bytes that the image of a bench takes. -/
def Bench.imageSize (x : Bench) : Nat := 0x36C000 + 4608 * x.blocks.length

/-- Writes an image at DPA `a`, under hallmark 0 and the guarded class, where memory is populated. -/
def State.putImage (s : State) (a size : Nat) (m : Memory) : State :=
  let live := m.filter fun p => (s.route (a + p.1)).isSome
  let d := Sp.overlay (Sp.eraseRange s.mem.dram a (a + size)) a (live.filter fun p => p.2 != 0)
  { s with
    mem := { s.mem with
      dram := d
      watched := Sp.eraseRange s.mem.watched (a / 64) ((a + size) / 64)
      lineErr := Sp.eraseRange s.mem.lineErr (a / 64) ((a + size) / 64) } }

/-- The BEN registers of table 11.6. -/
def imageKinds : List RegKind := [.benXjSp, .benXjSl, .benXjBase, .benPguard, .benSguardJ, .benXdeleg]

/-- Every request of a bench that has been handed over has ended (11 R368). -/
def State.handedStill (s : State) (b : BenchId) : Bool :=
  let x := s.bench b
  x.handed && !s.benchBusy b && (benchCarters b).all s.ringStill

/-- Every bench of a preempting kernel has been written: it is preempted, or, when a bench has seized, it ends with SEIZED. -/
def State.preemptDone (s : State) (n : SlotId) : State :=
  let k := s.kernel n
  let seized := k.benches.filter fun b => !k.free.contains b
  if !(seized.all fun b => !s.ofSlot n b || s.fld .benXstat b.val 31 31 == 1) then s
  else if seized.isEmpty && k.status != stSeized then (s.updKernel n fun k => { k with phase := .preempted }).setSlotState n 5
  else
    (s.updKernel n fun k =>
      { k with phase := .ending true, status := stSeized, benches := seized, images := [], imageRegs := [] }).setSlotState n 3

/-- STATE_IMAGE_WRITE: the bench's image is written, and the bench becomes free: the image holds what its forge had to do, and the bench itself
is quiescent (05 R186). A drain with DK 2 resumes at its lowest failing row (10 R535). -/
def stateImageWrite (b : BenchId) (s : State) : State :=
  match (s.bench b).slot with
  | none => s
  | some n =>
    let k := s.kernel n
    let seized := s.fld .benXstat b.val 31 31 == 1
    if k.phase ≠ .preempting then s
    else if seized then s.preemptDone n
    else if !s.handedStill b then s
    else
      let rank := (k.benches.takeWhile (· != b)).length
      let s := ladleSettle b s
      let x := s.bench b
      let s := s.drawn.putImage (s.slotImage n + rank * 0x400000) x.imageSize (x.image s.draws (s.progressRecord b))
      let s := s.updKernel n fun k =>
        { k with
          images := Sp.put k.images rank x
          imageRegs := Sp.put k.imageRegs rank (imageKinds.map fun r => s.reg ⟨r, b.val, 0⟩)
          free := k.free ++ [b] }
      ((s.freeBench b).updForge b Forge.emptied).preemptDone n

/-- STATE_IMAGE_WRITE. -/
def execStateImageWrite (b : BenchId) (s : State) : Host.Outcome State Fault Refusal := act s (clocked (stateImageWrite b))

/-- Words of a tile memory from its image. -/
def tilesOf (m : Memory) : Sparse W32 :=
  (m.map fun p => p.1 / 4).eraseDups.filterMap fun k =>
    let v := BitVec.ofNat 32 (m.leNat id (4 * k) 4)
    if v = 0 then none else some (k, v)

/-- The residues of the elements of a tile memory (07 R212, R214). -/
def residuesOf (t : Sparse W32) : Sparse (BitVec 2) :=
  t.filterMap fun p => if residueOf p.2 = 0 then none else some (p.1, residueOf p.2)

/-- Mask bits from their image. -/
def masksOf (m : Memory) : Sparse Bool :=
  m.flatMap fun p => (List.range 8).filterMap fun j => if p.2.getLsbD j then some (8 * p.1 + j, true) else none

/-- Program-store words of the blocks from their image. -/
def psOf (m : Memory) (blocks : List Nat) : Sparse W36 :=
  ((List.range blocks.length).zip blocks).flatMap fun p =>
    let v := m.leNat id (4608 * p.1) 4608
    (List.range 1024).filterMap fun k =>
      let w := BitVec.ofNat 36 (v / 2 ^ (36 * k))
      if w = 0 then none else some (1024 * p.2 + k, w)

/-- A bench as its image at DPA `a` restores it: what table 11.8 lays out comes from memory, the rest is as it was saved. What
the image does not hold stays the bench's own: what self-test left, its row counts and its store mode. -/
def State.restored (s : State) (now x : Bench) (a : Nat) : Bench :=
  let part (off len : Nat) : Memory := Sp.slice s.mem.dram (a + off) (a + off + len)
  { x with
    slot := now.slot, excluded := now.excluded, openStore := now.openStore, handed := false, dcache := [], psErr := [], storeBad := []
    store := part 0 0x200000
    ps := psOf (part 0x36C000 (4608 * x.blocks.length)) x.blocks
    core := { x.core with running := false, halted := false, stepping := false, fetchDue := true, lookahead := [] }
    lathe := { x.lathe with v := part 0x340000 0x20000, m := masksOf (part 0x360000 0x8000) }
    forge := { x.forge with
      tiles := tilesOf (part 0x200000 0x100000), residues := residuesOf (tilesOf (part 0x200000 0x100000)), plates := part 0x300000 0x40000
      rowErr := now.forge.rowErr, inject := now.forge.inject, dross := false, duty := 0
      lastArray := now.forge.lastArray, granted := now.forge.granted, spare := now.forge.spare } }

/-- A preempted kernel's benches are all free, and no waiting launch of higher PRI holds one of them. -/
def State.mayResume (s : State) (n : SlotId) : Bool :=
  let k := s.kernel n
  let higher := s.served.filter fun m => decide (lPri k.words < lPri (s.kernel m).words)
  let held := (holds s [] higher [] []).flatMap (·.2)
  k.phase == .preempted && k.benches.all fun b => s.benchFree b && !held.contains b

/-- STATE_IMAGE_RESTORE: the images are restored, the rings enabled again, and the benches await their wake. -/
def stateImageRestore (n : SlotId) (s : State) : State :=
  if !s.mayResume n then s
  else
    let k := s.kernel n
    let s := (k.benches.zip (List.range k.benches.length)).foldl (fun s p =>
      let x := Sp.get (fun _ => ({} : Bench)) k.images p.2
      let s := s.updBench p.1 fun now =>
        { s.restored now x (s.slotImage n + p.2 * 0x400000) with slot := some n }
      let s := (imageKinds.zip (Sp.get (fun _ => []) k.imageRegs p.2)).foldl (fun s q => s.setReg ⟨q.1, p.1.val, 0⟩ q.2) s
      let s := s.launchRings p.1 k.words p.2
      (benchCarters p.1).foldl (fun s c => s.setCarterFld c 2 31 31 0) s) s
    let s := k.rings.foldl (fun s c => (s.setCarterFld c 2 31 31 1).updCarter c fun x => { x with reread := true }) s
    let s := (s.setKernel n
      { k with phase := .resuming, woken := [], free := [], rings := [], images := [], imageRegs := [], order := s.releases }).setSlotState n 2
    { s with releases := s.releases + 1 }

/-- STATE_IMAGE_RESTORE. -/
def execStateImageRestore (n : SlotId) (s : State) : Host.Outcome State Fault Refusal := act s (clocked (stateImageRestore n))

/-! ## Isolation of a bench (17 R505; 16 R480) -/

/-- Stores EN, DRAINING, PEND_EN and ON of FMN_BENCHb_CTL. -/
def State.setBenchCtl (s : State) (b : BenchId) (en drain pend on : Nat) : State :=
  s.setFld .fmnBenchCtl b.val 31 28 (8 * en + 4 * drain + 2 * pend + on)

/-- A write of 0 to FMN_BENCHb_CTL.EN. A free bench is off at once. While the bench drains, the write only withdraws a pending
enable; while the foreman resets a seized bench, the bench then stays off (17 R507). DEDUCED, log 107. -/
def State.benchDisable (s : State) (b : BenchId) : State :=
  let s := { s with seizing := s.seizing.filter (· != b) }
  if s.fld .fmnBenchCtl b.val 30 30 = 1 then s.setBenchCtl b 0 1 0 0
  else if s.fld .fmnBenchCtl b.val 28 28 = 0 then s.setBenchCtl b 0 0 0 0
  else if (s.bench b).slot.isNone then s.setBenchCtl b 0 0 0 0
  else s.setBenchCtl b 0 1 0 0

/-- BENCH_DISABLE. -/
def execBenchDisable (b : BenchId) (s : State) : Host.Outcome State Fault Refusal := act s (clocked fun s => s.benchDisable b)

end Sys2Proof.Machine
end

