-- ==== Sys2Proof/Machine/Alloy.lean ====
section
/-! DEFINITION. The alloy engine: collectives, their blocks and distress (14 R440-R445). -/

namespace Sys2Proof.Machine

/-! ## Collective descriptors (14 table 14.4) -/

def cForm (w : List W64) : Nat := wordBits w 0 63 60
def cOp (w : List W64) : Nat := wordBits w 0 59 57
def cFmt (w : List W64) : Nat := wordBits w 0 56 53
def cAcc (w : List W64) : Bool := wordBits w 0 52 52 == 1
def cCid (w : List W64) : BitVec 16 := BitVec.ofNat 16 (wordBits w 0 31 16)
def cP (w : List W64) : Nat := wordBits w 1 63 51
def cRank (w : List W64) : Nat := wordBits w 1 50 38
def cRoot (w : List W64) : Nat := wordBits w 1 37 25
def cNext (w : List W64) : PeerId := BitVec.ofNat 12 (wordBits w 1 24 13)
def cPrev (w : List W64) : PeerId := BitVec.ofNat 12 (wordBits w 1 12 1)
def cCount (w : List W64) : Nat := wordBits w 2 39 0

/-- The descriptor passes the checks whose failure is DESC. -/
def collOk (w : List W64) : Bool :=
  decide (cForm w ≤ 4) && decide (cOp w ≤ 2) && decide (cFmt w ≤ 5) && (!cAcc w || cFmt w == 2 || cFmt w == 3)
    && decide (1 ≤ cP w) && decide (cP w ≤ 4096) && decide (cRank w < cP w) && decide (cRoot w < cP w)
    && wordBits w 0 50 48 == 0 && wordBits w 0 15 0 == 0 && wordBits w 1 0 0 == 0 && wordBits w 2 47 40 == 0
    && (List.range 11).all fun k => w.getD (5 + k) 0 == 0

/-- Elements of a chunk but the last, L; and the first element and the length of chunk `c` (R441). -/
def cLen (w : List W64) : Nat := (cCount w + cP w - 1) / cP w
def chunkLo (w : List W64) (c : Nat) : Nat := min (c * cLen w) (cCount w)
def chunkLen (w : List W64) (c : Nat) : Nat := min (cLen w) (cCount w - chunkLo w c)

/-- The form folds values: ALLREDUCE, REDUCESCATTER, REDUCE. -/
def cFolds (w : List W64) : Bool := cForm w == 0 || cForm w == 1 || cForm w == 4

/-- The format of FMT: none, an integer of the width beside it. -/
def collFmt (fmt : Nat) : Option FFmt := [fp64, fp32, bf16, fp16][fmt]?

/-- Bytes of an element in memory, and of a partial value on the links (R442: FP32 with ACC). -/
def elSize (w : List W64) : Nat :=
  match cFmt w with
  | 0 | 5 => 8
  | 1 | 4 => 4
  | _ => 2
def partSize (w : List W64) : Nat := if cAcc w then 4 else elSize w

/-- Bytes of an element of a block. -/
def blockSize (w : List W64) (final : Bool) : Nat := if final then elSize w else partSize w

/-! ## The fold (R442) -/

/-- The format of partial values. -/
def partFmt (w : List W64) : Option FFmt := if cAcc w then some fp32 else collFmt (cFmt w)

/-- An element of memory as a partial value. -/
def toPart (w : List W64) (x : Nat) : Nat :=
  if cAcc w then
    match collFmt (cFmt w) with
    | some f => (fp32.round .near (f.decode x)).1
    | none => x
  else x

/-- A finished partial value as an element of memory: rounded once. -/
def ofPart (w : List W64) (v : Nat) : Nat :=
  if cAcc w then
    match collFmt (cFmt w) with
    | some f => (f.round .near (fp32.decode v)).1
    | none => v
  else v

/-- op(v, x) on partial values. -/
def collOp (w : List W64) (v x : Nat) : Nat :=
  match partFmt w with
  | some f =>
    match cOp w with
    | 0 => (f.round .near (FV.add .near (f.decode v) (f.decode x)).1).1
    | 1 => (f.extremum true false v x).1
    | _ => (f.extremum false false v x).1
  | none =>
    let n := 8 * elSize w
    match cOp w with
    | 0 => (v + x) % 2 ^ n
    | 1 => if toS n x < toS n v then x else v
    | _ => if toS n v < toS n x then x else v

/-- The little-endian values of `size` bytes each. -/
def splitVals (size : Nat) : Nat → List Byte → List Nat
  | 0, _ => []
  | n + 1, d => leVal (d.take size) :: splitVals size n (d.drop size)

/-- The bytes of values. -/
def joinVals (size : Nat) (l : List Nat) : List Byte := l.flatMap (leBytes size)

/-! ## Memory of a quarter -/

/-- A range of bytes cut at its 64 KiB page boundary. -/
def pageParts (a : W64) (len : Nat) : List (W64 × Nat) :=
  let n := 65536 - a.toNat % 65536
  if len ≤ n then [(a, len)] else [(a, n), (a + BitVec.ofNat 64 n, len - n)]

/-- Changes the collective of a quarter. -/
def State.updColl (s : State) (q : HallId) (f : Coll → Coll) : State := s.updQuarter q fun x => { x with coll := x.coll.map f }

/-- The request of a quarter at address `a`. -/
def collAsker (q : HallId) (a : W64) : Asker := { eng := .quarter q, el := addr52 a }

/-- Reads by quarter `q`, after the bytes `d` that it has read already, and keeps when it waits. -/
def State.collRead (q : HallId) : List (W64 × Nat) → List Byte → State → State × ElOut
  | [], d, s => (s, .ok d)
  | (a, n) :: r, d, s =>
    match s.endRead (collAsker q a) (s.quarterHmk q) 0 0 a n with
    | (s, .ok e) => State.collRead q r (d ++ e) s
    | (s, .stop st) => (s.updColl q fun c => { c with got := d }, .stop st)

/-- The input of the present block: `n` bytes from `a`. -/
def State.collInput (q : HallId) (a : W64) (n : Nat) (s : State) : State × ElOut :=
  let got := match (s.quarter q).coll with | some c => c.got | none => []
  State.collRead q (if n ≤ got.length then [] else pageParts (a + BitVec.ofNat 64 got.length) (n - got.length)) got s

/-- Writes by quarter `q`. -/
def State.collWrite (q : HallId) : List (W64 × Nat) → List Byte → State → State × ElOut
  | [], _, s => (s, .ok [])
  | (a, n) :: r, d, s =>
    match s.endWrite (collAsker q a) (s.quarterHmk q) 0 0 a (d.take n) with
    | (s, .ok _) => State.collWrite q r (d.drop n) s
    | o => o

/-- The output of a block: every page is translated before the first is written. -/
def State.collOutput (q : HallId) (a : W64) (d : List Byte) (s : State) : State × ElOut :=
  let parts := pageParts a d.length
  match State.dvaTranslate (.quarter q) (s.quarterHmk q) .write 1 ((parts.getLast?.getD (a, 0)).1) s with
  | (s, .ok) => State.collWrite q parts d s
  | (s, .wait w) => (s, .stop (.wait w (addr52 a)))
  | (s, .fault sub) => (s, .fail ceTransl sub a)
  | (s, .bad sub) => (s, .fail (busCode sub) 0 a)

/-- The address of element `e` of the full vector in the input: ALLGATHER's SRC holds this rank's chunk alone (table 14.5). -/
def srcAt (w : List W64) (e : Nat) : W64 :=
  w.getD 3 0 + BitVec.ofNat 64 (elSize w * (if cForm w = 2 then e - chunkLo w (cRank w) else e))

/-- The address of element `e` in the output: REDUCESCATTER's DST holds this rank's chunk alone. -/
def dstAt (w : List W64) (e : Nat) : W64 :=
  w.getD 4 0 + BitVec.ofNat 64 (elSize w * (if cForm w = 1 then e - chunkLo w (cRank w) else e))

/-! ## Blocks (R441, R442) -/

/-- Elements from `lo`, `n` of them, cut into blocks of 256 bytes of elements of `size` bytes; `k` bounds their number. -/
def cutBlocks (size : Nat) : Nat → Nat → Nat → List Nat
  | 0, _, _ => []
  | k + 1, lo, n => if n = 0 then [] else lo :: cutBlocks size k (lo + 256 / size) (n - 256 / size)

/-- The blocks of a chunk: its number and their first elements. -/
def chunkBlocks (w : List W64) (c : Nat) (final : Bool) : List (Nat × Nat) :=
  (cutBlocks (blockSize w final) (chunkLen w c) (chunkLo w c) (chunkLen w c)).map fun e => (c, e)

/-- The blocks that this rank starts are final: it folds nothing into them. -/
def startsFinal (w : List W64) : Bool := !cFolds w

/-- What this rank starts: chunk RANK - 1 of a fold, chunk RANK of an ALLGATHER, every chunk of the root's BROADCAST. -/
def ownBlocks (w : List W64) : List (Nat × Nat) :=
  let p := cP w
  if cFolds w then chunkBlocks w ((cRank w + p - 1) % p) false
  else if cForm w = 2 then chunkBlocks w (cRank w) true
  else if cRank w = cRoot w then (List.range p).flatMap fun c => chunkBlocks w c true
  else []

/-- This rank passes on a final block of chunk `c`. -/
def passesOn (w : List W64) (c : Nat) : Bool :=
  let p := cP w
  let next := (cRank w + 1) % p
  match cForm w with
  | 0 | 2 => next != c % p
  | 3 => next != cRoot w
  | 4 => cRank w != cRoot w
  | _ => false

/-- This rank writes the final values of chunk `c`. -/
def writesFinal (w : List W64) (c : Nat) : Bool :=
  match cForm w with
  | 1 => c == cRank w
  | 4 => cRank w == cRoot w
  | _ => true

/-- Elements that reach this rank from PREV: partial values of the chunks that it does not start, and final values. -/
def expectedElems (w : List W64) : Nat :=
  let p := cP w
  let r := cRank w
  let dist (a b : Nat) : Nat := (b + p - a) % p
  ((List.range p).map fun c =>
    let n := chunkLen w c
    let partial_ := if cFolds w && p != 1 && c != (r + p - 1) % p then n else 0
    let final :=
      match cForm w with
      | 0 | 2 => if c = r then 0 else n
      | 3 => if r = cRoot w then 0 else n
      | 4 => if c ≠ r ∧ dist c r ≤ dist c (cRoot w) then n else 0
      | _ => 0
    partial_ + final).sum

/-- Elements in a block that starts at `e` of chunk `c`. -/
def blockElems (w : List W64) (c e : Nat) (final : Bool) : Nat :=
  min (256 / blockSize w final) (chunkLo w c + chunkLen w c - e)

/-- A block goes to NEXT. -/
def State.sendBlock (s : State) (w : List W64) (c e : Nat) (final : Bool) (d : List Byte) : State :=
  s.sendTo (cNext w) 6 (.block (cCid w) c e final) d

/-- A block that has its final values: it is written here, and passed on. -/
def State.finalBlock (q : HallId) (w : List W64) (c e : Nat) (d : List Byte) (s : State) : State × ElOut :=
  let send (s : State) : State := if cP w ≠ 1 ∧ passesOn w c then s.sendBlock w c e true d else s
  if writesFinal w c then
    match s.collOutput q (dstAt w e) d with
    | (s, .ok _) => (send s, .ok [])
    | o => o
  else (send s, .ok [])

/-- This rank's own block of chunk `c` from element `e` on. -/
def State.ownBlock (q : HallId) (w : List W64) (c e : Nat) (s : State) : State × ElOut :=
  let final := startsFinal w
  let n := blockElems w c e final
  match s.collInput q (srcAt w e) (n * elSize w) with
  | (s, .ok d) =>
    if final then s.finalBlock q w c e d
    else
      let v := (splitVals (elSize w) n d).map (toPart w)
      if cP w = 1 then s.finalBlock q w c e (joinVals (elSize w) (v.map (ofPart w)))
      else (s.sendBlock w c e false (joinVals (partSize w) v), .ok [])
  | o => o

/-- A block from PREV: a partial one takes this rank's values, and is finished at the rank of its chunk. A finished one that does
not fill the same blocks goes on as it came. -/
def State.takeBlock (q : HallId) (w : List W64) (b : Block) (s : State) : State × ElOut :=
  if b.final then s.finalBlock q w b.chunk b.elem b.data
  else
    let n := b.data.length / partSize w
    match s.collInput q (srcAt w b.elem) (n * elSize w) with
    | (s, .ok d) =>
      let x := (splitVals (elSize w) n d).map (toPart w)
      let v := ((splitVals (partSize w) n b.data).zip x).map fun p => collOp w p.1 p.2
      if b.chunk = cRank w then s.finalBlock q w b.chunk b.elem (joinVals (elSize w) (v.map (ofPart w)))
      else (s.sendBlock w b.chunk b.elem false (joinVals (partSize w) v), .ok [])
    | o => o

/-! ## Ends -/

/-- Codes of table 14.6, and reasons of R444. -/
def ceMismatch : Byte := 0x10
def ceCollTimeout : Byte := 0x11
def ceDistress : Byte := 0x12
def whyQuench : BitVec 8 := 1
def whyTimeout : BitVec 8 := 2
def whyMismatch : BitVec 8 := 3
def whyError : BitVec 8 := 4

/-- An alloy record of quarter `q`. -/
def State.alloyRec (s : State) (q : HallId) (event : BitVec 16) (w2 w3 : W64) : State :=
  s.record { src := 5, event, unit_ := BitVec.ofNat 16 (16 + q.val), w2, w3 }

/-- A DISTRESS packet to a neighbour. -/
def State.tellDistress (s : State) (p : PeerId) (cid : BitVec 16) (origin : PeerId) (why : BitVec 8) : State :=
  s.sendTo p 8 (.distress cid origin why) []

/-- DISTRESS begins here: it goes to NEXT and to PREV. -/
def State.sendDistress (s : State) (q : HallId) (w : List W64) (why : BitVec 8) : State :=
  let cid := cCid w
  let s := (s.tellDistress (cNext w) cid s.ownPeer why).tellDistress (cPrev w) cid s.ownPeer why
  s.alloyRec q 7 (cid.setWidth 64) (why.setWidth 64)

/-- Writes bytes of the quarter's ring at offset `off` from its base. -/
def State.quarterWrite (s : State) (q : HallId) (off : Nat) (d : List Byte) : State × ElOut :=
  let a := s.fld .alyQRingHi q.val 19 0 * 0x100000000 + s.fld .alyQRingLo q.val 31 7 * 128 + off
  s.endWrite { eng := .quarter q, run := 1 } (s.quarterHmk q) 0 0 (BitVec.ofNat 64 a) d

/-- No request of the quarter is in flight. -/
def State.collQuiet (s : State) (q : HallId) : Bool := !s.inFlight fun w => w.eng == .quarter q

/-- The quarter waits in an access to its ring's memory. -/
def State.quarterWait (s : State) (q : HallId) (op : RingOp) (w : EngWait) (a : W64) : State :=
  s.updQuarter q fun x => { x with ringWait := some ⟨op, w, a⟩ }

/-- The collective leaves the quarter. -/
def State.dropColl (s : State) (q : HallId) : State :=
  ((s.withdraw (.quarter q)).land (.quarter q)).updQuarter q fun x => { x with coll := none, reread := true }

/-- The ring of a quarter has stopped, and EBELL rings when EBE asks for it (10 R324). -/
def State.quarterStopped (s : State) (q : HallId) : State :=
  let w := (s.quarter q).word3
  let s := (s.dropColl q).updQuarter q fun x => { x with err := true }
  if w.getLsbD 16 then s.ringBell (s.quarterHmk q) (s.quarter q).slot (w.setWidth 16) 1 else s

/-- A collective that has failed ends once its requests have: ERR is written, and its ring stops (10 R324). -/
def State.collEnd (s : State) (q : HallId) : State :=
  match (s.quarter q).coll with
  | none => s
  | some c =>
    match c.failed with
    | none => s
    | some (code, sub, addr) =>
      if (s.quarter q).ringWait.isSome || !s.collQuiet q then s
      else
        match s.quarterWrite q 16 (leBytes 8 (errWord code sub addr).toNat) with
        | (s, .stop (.wait w a)) => s.quarterWait q .stop w a
        | (s, _) => s.quarterStopped q

/-- The collective ends with a code, and with a reason DISTRESS is sent. Its reads are awaited no longer. One that ends already goes on so. -/
def State.collFail (s : State) (q : HallId) (code sub : Byte) (addr : W64) (why : Option (BitVec 8)) : State :=
  match (s.quarter q).coll with
  | none => s
  | some c =>
    if c.failed.isSome then s
    else
      let s := (s.withdraw (.quarter q)).land (.quarter q)
      let s := s.updQuarter q fun x =>
        { x with ringWait := none, coll := some { c with failed := some (code, sub, addr), wait := none, todo := [], inbox := [], got := [] } }
      let s := match why with | some y => s.sendDistress q c.words y | none => s
      s.collEnd q

/-- The ring's next descriptor ends with a code before it has begun: its memory could not be read (DEDUCED, log 150). -/
def State.collRefuse (s : State) (q : HallId) (n : W32) (code sub : Byte) (addr : W64) : State :=
  (s.updQuarter q fun x => { x with coll := some { n, words := [], hmk := s.quarterHmk q } }).collFail q code sub addr none

/-- The collective has completed: HEAD is written and CBELL rung (10 R313). -/
def State.collDone (s : State) (q : HallId) (c : Coll) : State :=
  match s.quarterWrite q 8 (leBytes 4 (c.n + 1).toNat) with
  | (s, .ok _) =>
    let h := s.quarterHmk q
    let n := (s.quarter q).slot
    let s := s.dropColl q
    if wordBits c.words 0 51 51 = 1 then s.ringBell h n (BitVec.ofNat 16 (wordBits c.words 0 47 32)) 1 else s
  | (s, .stop (.wait w a)) => s.quarterWait q .head w a
  | (s, .stop (.failed code sub a)) => s.collFail q code sub a (some whyError)
  | (s, _) => s

/-- Goes on with the collective of quarter `q`: its own blocks, then those received, at most `k`. It completes when it has written its last
value and every write is answered. -/
def collRun (q : HallId) : Nat → State → State
  | 0, s => s
  | k + 1, s =>
    match (s.quarter q).coll with
    | none => s
    | some c =>
      if !c.met || c.failed.isSome || c.wait.isSome || (s.quarter q).ringWait.isSome then s
      else
        let go (r : State × ElOut) (g : Coll → Coll) : State :=
          match r with
          | (s, .ok _) => collRun q k (s.updColl q fun c => { g c with got := [] })
          | (s, .stop (.wait w _)) => s.updColl q fun c => { c with wait := some w }
          | (s, .stop (.failed code sub a)) => s.collFail q code sub a (some whyError)
          | (s, _) => s
        match c.todo, c.inbox with
        | x :: _, _ => go (s.ownBlock q c.words x.1 x.2) fun c => { c with todo := c.todo.tail }
        | [], b :: _ =>
          go (s.takeBlock q c.words b) fun c =>
            { c with inbox := c.inbox.tail, left := c.left - b.data.length / blockSize c.words b.final }
        | [], [] => if c.left = 0 ∧ s.collQuiet q then s.collDone q c else s

/-- The steps that the collective may take now. -/
def State.collSteps (s : State) (q : HallId) : Nat :=
  match (s.quarter q).coll with
  | none => 1
  | some c => c.todo.length + c.inbox.length + 1

/-- The collective goes on as far as it may, or ends. -/
def State.collStep (s : State) (q : HallId) : State := (collRun q (s.collSteps q) s).collEnd q

/-! ## The start of a collective (10 R313; 14 R440, R443) -/

/-- This rank's HELLO. -/
def collHello (w : List W64) : Hello :=
  { cid := cCid w, form := BitVec.ofNat 4 (cForm w), op := BitVec.ofNat 3 (cOp w), fmt := BitVec.ofNat 4 (cFmt w), acc := cAcc w
    p := BitVec.ofNat 13 (cP w), root := BitVec.ofNat 13 (cRoot w), count := BitVec.ofNat 40 (cCount w)
    rank := BitVec.ofNat 13 (cRank w) }

/-- The HELLO that PREV must send. -/
def collExpects (w : List W64) : Hello :=
  { collHello w with rank := BitVec.ofNat 13 ((cRank w + cP w - 1) % cP w) }

/-- A HELLO from PREV meets the collective, or ends it with COLL_MISMATCH. DEDUCED, log 99. -/
def State.collMeet (s : State) (q : HallId) (h : Hello) : State :=
  match (s.quarter q).coll with
  | none => s
  | some c =>
    if h = collExpects c.words then (s.updColl q fun c => { c with met := true }).collStep q
    else s.collFail q ceMismatch 0 0 (some whyMismatch)

/-- A collective begins in the quarter: it sends its HELLO, and takes one that has come before it. -/
def State.collBegin (s : State) (q : HallId) (n : W32) (w : List W64) : State :=
  let c : Coll := { n, words := w, hmk := s.quarterHmk q, todo := if collOk w then ownBlocks w else [], left := if collOk w then expectedElems w else 0 }
  let s := s.updQuarter q fun x => { x with coll := some c }
  if !collOk w then s.drawn.collFail q ceDesc 0 ((Config.descAddr s.draws).setWidth 64) (some whyError)
  else if s.dray.held.contains (cCid w) then s.collFail q ceDistress 0 0 (some whyError)
  else
    let s := s.sendTo (cNext w) 7 (.hello (collHello w)) []
    if cP w = 1 then (s.updColl q fun c => { c with met := true }).collStep q
    else
      match (s.quarter q).early with
      | [] => s
      | h :: r => (s.updQuarter q fun x => { x with early := r }).collMeet q h

/-- The quarter reads the descriptor of slot count `n`, and starts it if its FORM is `form`, where one is named; else all stays as it was in
`back`. One of a reserved form ends with DESC whichever form is named. -/
def quarterSlot (q : HallId) (form : Option Nat) (back : State) (n : W32) (s : State) : State :=
  match s.quarterRead q (128 * (1 + n.toNat % 2 ^ ringLog (s.fld .alyQRingCfg q.val 19 16))) 128 with
  | (s', .ok e) =>
    let w := wordsOf 16 e
    if form.all (· == cForm w) || 5 ≤ cForm w then s'.collBegin q n w else back
  | (s', .stop (.wait w a)) => s'.quarterWait q (.slot n) w a
  | (s', .stop (.failed code sub a)) => s'.collRefuse q n code sub a
  | (s', _) => s'

/-- The quarter reads its control block, and goes on with the next slot. -/
def quarterBlock (q : HallId) (form : Option Nat) (back s : State) : State :=
  match s.quarterRead q 0 128 with
  | (s, .ok d) =>
    let cb := wordsOf 4 d
    let head : W32 := (cb.getD 1 0).setWidth 32
    let err := wordBits cb 2 63 63 = 1
    let s := s.updQuarter q fun x => { x with err, word3 := cb.getD 3 0 }
    if err || head = (cb.getD 0 0).setWidth 32 then s else quarterSlot q form back head s
  | (s, .stop (.wait w a)) => s.quarterWait q .block w a
  | (s, .stop (.failed code sub a)) => s.collRefuse q 0 code sub a
  | (s, _) => s

/-- A collective command of FORM `form`: the quarter has seen its doorbell, or a descriptor has ended, and its next descriptor starts if it
has that form. -/
def collStart (q : HallId) (form : Nat) (s : State) : State :=
  let x := s.quarter q
  let bell := BitVec.ofNat 16 (s.fld .alyQRingCfg q.val 15 0)
  let seen := s.bell bell
  let h := s.quarterHmk q
  if !s.rootOn || !s.quarterOn q || s.fld .alyQRingCfg q.val 31 31 ≠ 1 || !s.ringsBegin x.slot || x.coll.isSome || x.ringWait.isSome then s
  else if x.seen = seen && !x.reread then s
  else if !s.bellAllows h bell then
    ((s.denyBell h bell).refuseKernel x.slot).updQuarter q fun x => { x with seen, reread := false }
  else quarterBlock q (some form) s (s.updQuarter q fun x => { x with seen, reread := false })

/-! ## Waits, responses and failures (09 R295, R296; 10 R324) -/

/-- The quarter's accesses that wait as `p` says go on. -/
def State.collRetry (s : State) (q : HallId) (p : EngWait → Bool) : State :=
  let s :=
    match (s.quarter q).ringWait with
    | none => s
    | some x =>
      if !p x.wait then s
      else
        let s := s.updQuarter q fun y => { y with ringWait := none }
        match x.op, (s.quarter q).coll with
        | .block, _ => quarterBlock q none s s
        | .slot n, _ => quarterSlot q none s n s
        | .head, some c => s.collDone q c
        | .stop, _ => s.collEnd q
        | _, _ => s
  match (s.quarter q).coll with
  | some c => if c.wait.any p then (s.updColl q fun c => { c with wait := none }).collStep q else s
  | none => s

/-- Responses have come to a quarter, or a stack serves it again: what waits for them goes on, or ends. Those that come for nothing any more
are dropped. -/
def State.collGo (s : State) (q : HallId) : State :=
  let s := (s.collRetry q (· == .ext)).collStep q
  let x := s.quarter q
  let live (k : Nat) : Bool := if k = 1 then x.ringWait.isSome else x.coll.any fun c => c.wait.isSome
  { s with xlat := { s.xlat with replies := s.xlat.replies.filter fun r => !(r.flight.who.eng == .quarter q && !live r.flight.who.run) } }

/-- The quarter's access to its ring's memory has failed. -/
def State.quarterGiveUp (s : State) (q : HallId) (p : RingWait → Bool) (code sub : Byte) : State :=
  match (s.quarter q).ringWait with
  | none => s
  | some x =>
    if !p x then s
    else
      let s := s.updQuarter q fun y => { y with ringWait := none }
      match x.op with
      | .block => s.collRefuse q 0 code sub x.addr
      | .slot n => s.collRefuse q n code sub x.addr
      | .head => s.collFail q code sub x.addr (some whyError)
      | .stop => s.quarterStopped q
      | .close =>
        { s.setQuarterEn q 0 with
          kernels := s.kernels.map fun (k : Nat × Kernel) => (k.1, { k.2 with quarters := k.2.quarters.filter (· != q) }) }

/-- What waits on entry `n`, or without a record for the entry's page, is abandoned: TRANSL with the entry's subcause (09 R296). -/
def State.collAbandon (s : State) (q : HallId) (n page : Nat) (sub : Byte) (addr : W64) : State :=
  let s := s.quarterGiveUp q (fun x => x.wait == .fault n || (x.wait == .quota && x.addr.toNat / 65536 == page)) ceTransl sub
  match (s.quarter q).coll with
  | some c => if c.wait == some (.fault n) || c.wait == some .quota then s.collFail q ceTransl sub (addr52 addr) (some whyError) else s
  | none => s

/-! ## The commands -/

/-- ALLREDUCE. -/
def execAllreduce (q : HallId) (s : State) : Host.Outcome State Fault Refusal := act s (collStart q 0)
/-- REDUCESCATTER. -/
def execReducescatter (q : HallId) (s : State) : Host.Outcome State Fault Refusal := act s (collStart q 1)
/-- ALLGATHER. -/
def execAllgather (q : HallId) (s : State) : Host.Outcome State Fault Refusal := act s (collStart q 2)
/-- BROADCAST. -/
def execBroadcast (q : HallId) (s : State) : Host.Outcome State Fault Refusal := act s (collStart q 3)
/-- REDUCE. -/
def execReduce (q : HallId) (s : State) : Host.Outcome State Fault Refusal := act s (collStart q 4)

/-- ALLOY_HELLO: a HELLO from PREV is checked; one that no collective awaits is kept. -/
def execAlloyHello (q : HallId) (h : Hello) (s : State) : Host.Outcome State Fault Refusal :=
  act s (clocked fun s =>
    let s := s.unload fun k => k.body == .hello h
    match (s.quarter q).coll with
    | some c => if c.met then s.updQuarter q fun x => { x with early := x.early ++ [h] } else s.collMeet q h
    | none => if s.quarterOn q then s.updQuarter q fun x => { x with early := x.early ++ [h] } else s)

/-- The packet carries block `b`. -/
def Packet.isBlock (k : Packet) (b : Block) : Bool :=
  match k.body with
  | .block _ c e f => c == b.chunk && e == b.elem && f == b.final && k.data == b.data
  | _ => false

/-- ALLOY_DATA: a block from PREV. -/
def alloyData (q : HallId) (b : Block) (s : State) : State :=
  match (s.quarter q).coll with
  | none => s
  | some c =>
    if c.failed.isSome then s else (s.updColl q fun c => { c with inbox := c.inbox ++ [b] }).collStep q

/-- ALLOY_DATA. -/
def execAlloyData (q : HallId) (chunk elem : Nat) (final : Bool) (data : List Byte) (s : State) :
    Host.Outcome State Fault Refusal :=
  act s (clocked fun s =>
    let b : Block := ⟨chunk, elem, final, data⟩
    alloyData q b (s.unload (Packet.isBlock · b)))

/-- COLL_TIMEOUT: nothing has come from PREV for WAITLIM. -/
def execCollTimeout (q : HallId) (s : State) : Host.Outcome State Fault Refusal :=
  act s (clocked fun s => s.collFail q ceCollTimeout 0 0 (some whyTimeout))

/-- The quarters whose active collective has a CID. -/
def State.withCid (s : State) (cid : BitVec 16) : List (HallId × List W64) :=
  (List.finRange 4).filterMap fun q =>
    match (s.quarter q).coll with
    | some c => if cCid c.words = cid && c.failed.isNone && !c.words.isEmpty then some (q, c.words) else none
    | none => none

/-- Notes that a pair of CID and origin has been forwarded. -/
def State.setForwarded (s : State) (cid : BitVec 16) (origin : PeerId) : State :=
  { s with dray := { s.dray with forwarded := (cid, origin) :: s.dray.forwarded } }

/-- DISTRESS: ends the collectives with its CID, is forwarded once to the neighbour that it did not come from, and its CID is held
in a list of 64. DEDUCED, log 96. -/
def distress (q : HallId) (cid : BitVec 16) (origin : PeerId) (why : BitVec 8) (fromPrev : Bool) (s : State) : State :=
  let hit := s.withCid cid
  let s := s.alloyRec q 8 (cid.setWidth 64) (origin.setWidth 64)
  let s := hit.foldl (fun s x => s.collFail x.1 ceDistress 0 0 none) s
  let s :=
    match hit with
    | x :: _ =>
      if s.dray.forwarded.contains (cid, origin) then s
      else
        let s := s.tellDistress (if fromPrev then cNext x.2 else cPrev x.2) cid origin why
        (s.alloyRec x.1 7 (cid.setWidth 64) (why.setWidth 64)).setForwarded cid origin
    | [] => s
  { s with dray := { s.dray with held := ((s.dray.held.filter (· != cid)) ++ [cid]).reverse.take 64 |>.reverse } }

/-- DISTRESS. -/
def execDistress (q : HallId) (cid : BitVec 16) (origin : PeerId) (why : BitVec 8) (fromPrev : Bool) (s : State) :
    Host.Outcome State Fault Refusal :=
  act s (clocked fun s => distress q cid origin why fromPrev (s.unload fun k => k.body == .distress cid origin why))

/-- DISTRESS_HOLD_EXPIRY: a held CID leaves the list. -/
def execDistressHoldExpiry (cid : BitVec 16) (s : State) : Host.Outcome State Fault Refusal :=
  act s (clocked fun s =>
    { s with
      dray := { s.dray with
        held := s.dray.held.filter (· != cid)
        forwarded := s.dray.forwarded.filter fun x => x.1 != cid } })

/-- R445: every quarter ends its active collectives, with reason QUENCH. -/
def State.quenchDistress (s : State) : State :=
  (List.finRange 4).foldl (fun s q => s.collFail q ceDistress 0 0 (some whyQuench)) s

/-- A write of 0 to ALY_Qh_RING_CFG.EN: the quarter drains, its collective stops with HEAD unchanged (10 R341). While it drains, the
write only withdraws a pending enable (16 R480). -/
def State.quarterDisable (s : State) (q : HallId) : State :=
  if s.fld .alyQStatus q.val 31 31 = 1 then (s.setFld .alyQStatus q.val 30 30 0).setFld .alyQRingCfg q.val 31 31 0
  else if s.fld .alyQStatus q.val 29 29 = 0 then s
  else
    (((s.setFld .alyQStatus q.val 31 31 1).setFld .alyQStatus q.val 29 29 0).setFld .alyQRingCfg q.val 31 31 0).withdraw (.quarter q) |>.updQuarter q fun x =>
      { x with coll := none, ringWait := none, reread := true }

/-- ALLOY_QUARTER_DISABLE. -/
def execAlloyQuarterDisable (q : HallId) (s : State) : Host.Outcome State Fault Refusal := act s (clocked fun s => s.quarterDisable q)

end Sys2Proof.Machine
end

