-- ==== Sys2Proof/Machine/Alu.lean ====
section
/-! DEFINITION. Scalar arithmetic: ALU, MULC, DIVC, the immediate and long forms and PCMP (02 R47-R50). -/

namespace Sys2Proof.Machine

/-! ## Shared forms -/

/-- A register operation: `g` gives the result and the flags for SF = 1 from the flags and the two operands. -/
def regOp (b : BenchId) (f : FmtR) (opc fn : BitVec 8) (cyc : Nat) (g : Flags → W64 → W64 → W64 × Flags) (s : State) :
    State :=
  issue b { word := f.word opc fn, regs := [f.rd, f.ra, f.rb] }
    (fun s =>
      let c := (s.bench b).core
      let r := g c.flags (c.rd f.ra) (c.rd f.rb)
      .done (s.updCore b fun c => c.result f.rd r.1 f.sf r.2) cyc false) s

/-- An ALU function whose flags are Z and N. -/
def znOp (g : W64 → W64 → W64) (fl : Flags) (x y : W64) : W64 × Flags := (g x y, fl.zn (g x y))

/-- An ALU function (02 R47, 3 A-cycles). -/
def aluOp (b : BenchId) (f : FmtR) (fn : BitVec 8) (g : Flags → W64 → W64 → W64 × Flags) (s : State) : State :=
  regOp b f 0x01 fn 3 g s

/-- The sign-extended immediate of format I (02 R46). -/
def immValue (f : FmtI) : W64 := f.imm.signExtend 64

/-- An immediate operation of format I (02 R48). -/
def immOp (b : BenchId) (f : FmtI) (opc : BitVec 8) (g : Flags → W64 → W64 → W64 × Flags) (s : State) : State :=
  issue b { word := f.word opc, regs := [f.rd, f.ra] }
    (fun s =>
      let c := (s.bench b).core
      let r := g c.flags (c.rd f.ra) (immValue f)
      .done (s.updCore b fun c => c.result f.rd r.1 f.sf r.2) 3 false) s

/-- A long form of format X: reserved bits must be 0 (02 R44, R48). DEDUCED, log 139. -/
def longOp (b : BenchId) (f : FmtX) (opc : BitVec 8) (usesA sets : Bool) (g : Flags → W64 → W64 × Flags) (s : State) :
    State :=
  issue b
    { word := f.word opc, imm := f.imm, long := true
      illegal := f.rsv != 0 || (!usesA && f.ra != 0) || (!sets && f.sf != 0)
      regs := if usesA then [f.rd, f.ra] else [f.rd] }
    (fun s =>
      let c := (s.bench b).core
      let r := g c.flags (c.rd f.ra)
      .done (s.updCore b fun c => c.result f.rd r.1 f.sf r.2) 4 false) s

/-! ## Pure functions -/

/-- Rotate right by `n`. -/
def ror64 (x : W64) (n : Nat) : W64 := x.rotateRight n

/-- Leading zeros of a 64-bit word, 0 to 64. -/
def clz64 (x : W64) : Nat := if x = 0 then 64 else 63 - Nat.log2 x.toNat

/-- The number of 1 bits in the `n` low bits. -/
def popBits (x : Nat) : Nat → Nat
  | 0 => 0
  | n + 1 => x / 2 ^ n % 2 + popBits x n

/-- The number of 1 bits of a 64-bit word. -/
def popc64 (x : W64) : Nat := popBits x.toNat 64

def minS (x y : W64) : W64 := if x.toInt ≤ y.toInt then x else y
def maxS (x y : W64) : W64 := if x.toInt ≤ y.toInt then y else x
def minU (x y : W64) : W64 := if x.toNat ≤ y.toNat then x else y
def maxU (x y : W64) : W64 := if x.toNat ≤ y.toNat then y else x

/-- Quotient and remainder (02 R49): truncated toward zero; a zero divisor gives all ones and ra. -/
def divU (x y : W64) : W64 := if y = 0 then BitVec.allOnes 64 else BitVec.ofNat 64 (x.toNat / y.toNat)
def divS (x y : W64) : W64 := if y = 0 then BitVec.allOnes 64 else BitVec.ofInt 64 (Int.tdiv x.toInt y.toInt)
def remU (x y : W64) : W64 := if y = 0 then x else BitVec.ofNat 64 (x.toNat % y.toNat)
def remS (x y : W64) : W64 := if y = 0 then x else BitVec.ofInt 64 (Int.tmod x.toInt y.toInt)

/-- The shift that KIND selects (02 R48). -/
def shiftKind (k : BitVec 2) (x : W64) (n : Nat) : W64 :=
  match k.toNat with
  | 0 => x <<< n
  | 1 => x >>> n
  | 2 => x.sshiftRight n
  | _ => ror64 x n

/-- The relation of PCMP (02 R50); none: REL 7. -/
def relHolds (rel : BitVec 3) (x y : W64) : Bool :=
  match rel.toNat with
  | 0 => x == y
  | 1 => x != y
  | 2 => decide (x.toInt < y.toInt)
  | 3 => decide (y.toInt ≤ x.toInt)
  | 4 => decide (x.toNat < y.toNat)
  | 5 => decide (y.toNat ≤ x.toNat)
  | _ => (x &&& y) != 0

/-- Writes predicate PD (02 R50). -/
def Flags.setPred (f : Flags) (pd : BitVec 2) (v : Bool) : Flags :=
  match pd.toNat with
  | 1 => { f with p1 := v }
  | 2 => { f with p2 := v }
  | 3 => { f with p3 := v }
  | _ => f

/-! ## ALU (02 table 2.5) -/

/-- ADD. -/
def execAdd (b : BenchId) (f : FmtR) (s : State) : Host.Outcome State Fault Refusal :=
  act s (aluOp b f 0x00 fun fl x y => (x + y, fl.addition x y false))

/-- SUB. -/
def execSub (b : BenchId) (f : FmtR) (s : State) : Host.Outcome State Fault Refusal :=
  act s (aluOp b f 0x01 fun fl x y => (x - y, fl.subtraction x y true))

/-- ADC: ra + rb + C. -/
def execAdc (b : BenchId) (f : FmtR) (s : State) : Host.Outcome State Fault Refusal :=
  act s (aluOp b f 0x02 fun fl x y => (x + y + (if fl.c then 1 else 0), fl.addition x y fl.c))

/-- SBC: ra - rb - (1 - C). -/
def execSbc (b : BenchId) (f : FmtR) (s : State) : Host.Outcome State Fault Refusal :=
  act s (aluOp b f 0x03 fun fl x y => (x - y - (if fl.c then 0 else 1), fl.subtraction x y fl.c))

/-- AND. -/
def execAnd (b : BenchId) (f : FmtR) (s : State) : Host.Outcome State Fault Refusal :=
  act s (aluOp b f 0x04 (znOp fun x y => x &&& y))

/-- OR. -/
def execOr (b : BenchId) (f : FmtR) (s : State) : Host.Outcome State Fault Refusal :=
  act s (aluOp b f 0x05 (znOp fun x y => x ||| y))

/-- XOR. -/
def execXor (b : BenchId) (f : FmtR) (s : State) : Host.Outcome State Fault Refusal :=
  act s (aluOp b f 0x06 (znOp fun x y => x ^^^ y))

/-- ANDN. -/
def execAndn (b : BenchId) (f : FmtR) (s : State) : Host.Outcome State Fault Refusal :=
  act s (aluOp b f 0x07 (znOp fun x y => x &&& ~~~y))

/-- SLL by rb[5:0]. -/
def execSll (b : BenchId) (f : FmtR) (s : State) : Host.Outcome State Fault Refusal :=
  act s (aluOp b f 0x08 (znOp fun x y => x <<< (y.toNat % 64)))

/-- SRL by rb[5:0]. -/
def execSrl (b : BenchId) (f : FmtR) (s : State) : Host.Outcome State Fault Refusal :=
  act s (aluOp b f 0x09 (znOp fun x y => x >>> (y.toNat % 64)))

/-- SRA by rb[5:0]. -/
def execSra (b : BenchId) (f : FmtR) (s : State) : Host.Outcome State Fault Refusal :=
  act s (aluOp b f 0x0A (znOp fun x y => x.sshiftRight (y.toNat % 64)))

/-- ROR by rb[5:0]. -/
def execRor (b : BenchId) (f : FmtR) (s : State) : Host.Outcome State Fault Refusal :=
  act s (aluOp b f 0x0B (znOp fun x y => ror64 x (y.toNat % 64)))

/-- MIN, signed. -/
def execMin (b : BenchId) (f : FmtR) (s : State) : Host.Outcome State Fault Refusal :=
  act s (aluOp b f 0x0C (znOp minS))

/-- MAX, signed. -/
def execMax (b : BenchId) (f : FmtR) (s : State) : Host.Outcome State Fault Refusal :=
  act s (aluOp b f 0x0D (znOp maxS))

/-- MINU. -/
def execMinu (b : BenchId) (f : FmtR) (s : State) : Host.Outcome State Fault Refusal :=
  act s (aluOp b f 0x0E (znOp minU))

/-- MAXU. -/
def execMaxu (b : BenchId) (f : FmtR) (s : State) : Host.Outcome State Fault Refusal :=
  act s (aluOp b f 0x0F (znOp maxU))

/-- CLZ. -/
def execClz (b : BenchId) (f : FmtR) (s : State) : Host.Outcome State Fault Refusal :=
  act s (aluOp b f 0x10 (znOp fun x _ => BitVec.ofNat 64 (clz64 x)))

/-- POPC. -/
def execPopc (b : BenchId) (f : FmtR) (s : State) : Host.Outcome State Fault Refusal :=
  act s (aluOp b f 0x11 (znOp fun x _ => BitVec.ofNat 64 (popc64 x)))

/-! ## MULC and DIVC (02 R49) -/

/-- MUL: bits [63:0] of the product. -/
def execMul (b : BenchId) (f : FmtR) (s : State) : Host.Outcome State Fault Refusal :=
  act s (regOp b f 0x10 0 6 (znOp fun x y => x * y))

/-- MULHU: bits [127:64] of the unsigned product. -/
def execMulhu (b : BenchId) (f : FmtR) (s : State) : Host.Outcome State Fault Refusal :=
  act s (regOp b f 0x10 1 6 (znOp fun x y => BitVec.ofNat 64 (x.toNat * y.toNat / 2 ^ 64)))

/-- MULHS: bits [127:64] of the signed product. -/
def execMulhs (b : BenchId) (f : FmtR) (s : State) : Host.Outcome State Fault Refusal :=
  act s (regOp b f 0x10 2 6 (znOp fun x y => BitVec.ofInt 64 (x.toInt * y.toInt / 2 ^ 64)))

/-- DIVU. -/
def execDivu (b : BenchId) (f : FmtR) (s : State) : Host.Outcome State Fault Refusal :=
  act s (regOp b f 0x11 0 34 (znOp divU))

/-- DIVS. -/
def execDivs (b : BenchId) (f : FmtR) (s : State) : Host.Outcome State Fault Refusal :=
  act s (regOp b f 0x11 1 34 (znOp divS))

/-- REMU. -/
def execRemu (b : BenchId) (f : FmtR) (s : State) : Host.Outcome State Fault Refusal :=
  act s (regOp b f 0x11 2 34 (znOp remU))

/-- REMS. -/
def execRems (b : BenchId) (f : FmtR) (s : State) : Host.Outcome State Fault Refusal :=
  act s (regOp b f 0x11 3 34 (znOp remS))

/-! ## Immediate and long forms (02 R48) -/

/-- ADDI. -/
def execAddi (b : BenchId) (f : FmtI) (s : State) : Host.Outcome State Fault Refusal :=
  act s (immOp b f 0x02 fun fl x y => (x + y, fl.addition x y false))

/-- ANDI. -/
def execAndi (b : BenchId) (f : FmtI) (s : State) : Host.Outcome State Fault Refusal :=
  act s (immOp b f 0x03 (znOp fun x y => x &&& y))

/-- ORI. -/
def execOri (b : BenchId) (f : FmtI) (s : State) : Host.Outcome State Fault Refusal :=
  act s (immOp b f 0x04 (znOp fun x y => x ||| y))

/-- XORI. -/
def execXori (b : BenchId) (f : FmtI) (s : State) : Host.Outcome State Fault Refusal :=
  act s (immOp b f 0x05 (znOp fun x y => x ^^^ y))

/-- CMPI: flags of ra - IMM13; RD and SF are reserved. -/
def execCmpi (b : BenchId) (f : FmtI) (s : State) : Host.Outcome State Fault Refusal :=
  act s (issue b { word := f.word 0x07, illegal := f.rd != 0 || f.sf != 0, regs := [f.ra] }
    fun s =>
      let c := (s.bench b).core
      .done (s.updCore b fun c' => { c' with flags := c.flags.subtraction (c.rd f.ra) (immValue f) true }) 3 false)

/-- SHI: shift by SHAMT. -/
def execShi (b : BenchId) (f : FmtSH) (s : State) : Host.Outcome State Fault Refusal :=
  act s (issue b { word := f.word 0x06, illegal := f.rsv != 0, regs := [f.rd, f.ra] }
    fun s =>
      let c := (s.bench b).core
      let r := shiftKind f.kind (c.rd f.ra) f.shamt.toNat
      .done (s.updCore b fun c => c.result f.rd r f.sf (c.flags.zn r)) 3 false)

/-- LI: the sign-extended IMM36. Its RA and SF fields name nothing (DEDUCED, log 11). -/
def execLi (b : BenchId) (f : FmtX) (s : State) : Host.Outcome State Fault Refusal :=
  act s (longOp b { f with sf := 0 } 0x08 true true fun fl _ => (f.imm.signExtend 64, fl))

/-- LIH: IMM36[27:0] into bits [63:36] of ra. Its SF field names nothing (DEDUCED, log 11). -/
def execLih (b : BenchId) (f : FmtX) (s : State) : Host.Outcome State Fault Refusal :=
  act s (longOp b { f with sf := 0 } 0x09 true true fun fl x =>
    ((x &&& 0xFFFFFFFFF#64) ||| (f.imm.setWidth 64 <<< 36), fl))

/-- ADDL: ra + IMM36, flags as ADD. -/
def execAddl (b : BenchId) (f : FmtX) (s : State) : Host.Outcome State Fault Refusal :=
  act s (longOp b f 0x0A true true fun fl x => (x + f.imm.signExtend 64, fl.addition x (f.imm.signExtend 64) false))

/-- PCMP: the relation REL into predicate PD. -/
def execPcmp (b : BenchId) (f : FmtP) (s : State) : Host.Outcome State Fault Refusal :=
  act s (issue b { word := f.word 0x18, illegal := f.rsv != 0 || f.pd == 0 || f.rel == 7, regs := [f.ra, f.rb] }
    fun s =>
      let c := (s.bench b).core
      let v := relHolds f.rel (c.rd f.ra) (c.rd f.rb)
      .done (s.updCore b fun c' => { c' with flags := c.flags.setPred f.pd v }) 3 false)

end Sys2Proof.Machine
end

