-- ==== Sys2Proof/Machine/Dray.lean ====
section
/-! DEFINITION. Dray ports, routes, and requests and responses of peers (14 R426-R438; 09 R285, R306-R307). -/

namespace Sys2Proof.Machine

/-! ## The link layer (R428, R430) -/

/-- The port goes DOWN: its link layer forgets everything. DEDUCED, log 98. -/
def State.portDown (s : State) (p : Nat) : State :=
  let s := ((s.setPortState p 0).setFld .dryPortStat p 27 26 0).updPort p fun _ => {}
  s.portRec p 2 (s.fld .dryPortStat p 7 0) 0

/-- The port trains again: it sends nothing meanwhile, and of a link that has been up everything stays (R431). -/
def State.retrained (s : State) (p : Nat) : State :=
  let up := s.portRuns p
  ((s.satAdd .dryPortStat p 7 0 1).setPortState p 1).updPort p fun x => { x with retrain := x.retrain || up }

/-- Replays every unacknowledged flit in SEQ order; a NAK that is due goes with the first. RMAX replays in a row without progress retrain the
port. -/
def State.replay (s : State) (p : PortId) : State :=
  let x := s.port p.val
  match x.replay with
  | [] => s
  | f :: r =>
    let again (nak : Bool) (f : Flit) : Out := .flit p { f with ack := x.last, nak }
    let s := r.foldl (fun s f => s.emit (again false f)) (s.emit (again x.nak f))
    let n := x.idle + 1
    let s := s.updPort p.val fun x => { x with nak := false, idle := n }
    if s.fld .dryPortCfg p.val 27 24 ≤ n then (s.retrained p.val).updPort p.val fun x => { x with idle := 0 } else s

/-- Takes an ACK: flits up to it leave the replay buffer. -/
def Port.acked (x : Port) (a : BitVec 12) : Port :=
  let r := x.replay.filter fun f => !(decide ((a - f.seq).toNat < 2048))
  { x with replay := r, idle := if r.length < x.replay.length then 0 else x.idle }

/-- A flit without payload leaves, if the replay buffer has room. -/
def State.sendIdle (s : State) (p : PortId) : State := if s.flitRoom p.val then s.sendFlit p 0 [] else s

/-- A packet is dropped: it is counted, with a record, and for a READ, WRITE or ATOMIC a RESPONSE with outcome LINK goes to SRC. DEDUCED, log
97. -/
def State.dropPacket (s : State) (o : Nat) (k : Packet) : State :=
  let s := { s with dray := { s.dray with drops := s.dray.drops + 1 } }.portRec o 5 k.dst.toNat k.type.toNat
  if k.type.toNat ≤ 2 then s.sendTo k.src 3 (.req { tag := k.tag, outcome := .link }) [] else s

/-- The packets of an accepted flit go to the receive buffers; those of reserved types are dropped and counted (R429). -/
def State.acceptPackets (s : State) (p : PortId) (l : List Packet) : State :=
  l.foldl (fun s k => if 10 ≤ k.type.toNat then s.dropPacket p.val k else s.updPort p.val fun x => { x with rx := x.rx ++ [k] }) s

/-- FLIT_RECEIVE. -/
def flitReceive (p : PortId) (x : Flit) (s : State) : State :=
  if !s.portRuns p.val then s
  else if !x.good then
    if (s.port p.val).gap then s else (s.updPort p.val fun y => { y with nak := true, gap := true }).sendIdle p
  else if x.seq ≠ (s.port p.val).last + 1 then s
  else
    let s := s.updPort p.val fun y => { y with last := x.seq, gap := false }.acked x.ack
    let s := if x.nak then s.replay p else s
    let n := (s.port p.val).seq
    let s := (s.acceptPackets p x.payload).pump p
    if x.idle || (s.port p.val).seq ≠ n then s else s.sendIdle p

/-- FLIT_RECEIVE: what the packets of an accepted flit do is in their own commands. -/
def execFlitReceive (p : PortId) (x : Flit) (s : State) : Host.Outcome State Fault Refusal := act s (clocked (flitReceive p x))

/-- REPLAY_TIMEOUT. -/
def execReplayTimeout (p : PortId) (s : State) : Host.Outcome State Fault Refusal :=
  act s (clocked fun s => if s.portRuns p.val then s.replay p else s)

/-- LANE_DEGRADE: a lane has lost lock, or `corrected` of its symbols within 2^20 F-cycles, which must exceed DEGTH x 1,024. Its pair is
dropped and the port retrains on the rest, or goes DOWN. -/
def laneDegrade (p : PortId) (lane : Fin 8) (corrected : Option Nat) (s : State) : State :=
  let pair := lane.val / 2
  if s.portState p.val = 0 ∨ (s.port p.val).pairs.contains pair ∨ corrected.any (· ≤ s.fld .dryPortCfg p.val 23 16 * 1024) then s
  else
    let n := (s.port p.val).pairs.length + 1
    let s := (s.retrained p.val).updPort p.val fun x => { x with pairs := pair :: x.pairs }
    if 2 < n then s.portDown p.val
    else (s.setFld .dryPortStat p.val 27 26 n).portRec p.val 1 (8 - 2 * n) lane.val

/-- LANE_DEGRADE. -/
def execLaneDegrade (p : PortId) (x : LaneLoss) (s : State) : Host.Outcome State Fault Refusal :=
  act s (clocked (laneDegrade p x.lane x.corrected))

/-- The credits that the receiver grants at link-up: the units of each receive buffer. CTRL packets need none (R430). -/
def State.grantCredits (s : State) (p : PortId) : State :=
  (List.finRange 4).foldl (fun s (c : Fin 4) =>
    (List.finRange 4).foldl (fun s l => s.sendCredit p ⟨c.val, by omega⟩ l (Config.bufferUnits c.val l.val)) s) s

/-- PORT_LINK_UP: this end tells DOM, peer id and port; the far end's are recorded, and a port to another domain is FENCED (R432). After a retrain the link layer
goes on as it stood (R431). -/
def portLinkUp (p : PortId) (dom : BitVec 16) (peer : PeerId) (port : BitVec 4) (s : State) : State :=
  let again := (s.port p.val).retrain
  let off := s.fld .dryPortCfg p.val 31 31 = 0 ∨ s.fld .dryPortStat p.val 31 31 = 1
  if (off ∧ !again) ∨ s.portRuns p.val then s
  else
    let s := s.emit (.hail p (BitVec.ofNat 16 (s.fld .dryId 0 31 16)) s.ownPeer)
    let s := (s.setFld .dryPortStat p.val 23 12 peer.toNat).setFld .dryPortStat p.val 11 8 port.toNat
    let s := s.updPort p.val fun x => if again then { x with retrain := false } else { pairs := x.pairs, queue := x.queue }
    let s :=
      if dom.toNat = s.fld .dryId 0 31 16 then (s.setPortState p.val 2).portRec p.val 3 peer.toNat port.toNat
      else (s.setPortState p.val 3).portRec p.val 6 dom.toNat peer.toNat
    (if again then s else s.grantCredits p).pump p

/-- PORT_LINK_UP. -/
def execPortLinkUp (p : PortId) (dom : BitVec 16) (peer : PeerId) (port : BitVec 4) (s : State) :
    Host.Outcome State Fault Refusal :=
  act s (clocked (portLinkUp p dom peer port))

/-- A write of 0 to DRY_PORTp_CFG.EN: the port drains, and is DOWN at once when no link has been up on it (R433). While it drains, the write
only withdraws a pending enable (16 R480). -/
def State.portDisable (s : State) (p : PortId) : State :=
  if s.fld .dryPortStat p.val 31 31 = 1 then (s.setFld .dryPortStat p.val 30 30 0).setFld .dryPortCfg p.val 31 31 0
  else if s.fld .dryPortCfg p.val 31 31 = 0 then s
  else
    let s := s.setFld .dryPortCfg p.val 31 31 0
    if s.portRuns p.val || (s.port p.val).retrain then s.setFld .dryPortStat p.val 31 31 1
    else (s.setPortState p.val 0).updPort p.val fun _ => {}

/-- PORT_DISABLE. -/
def execPortDisable (p : PortId) (s : State) : Host.Outcome State Fault Refusal := act s (clocked fun s => s.portDisable p)

/-- CREDIT: the receiver returns credits, and packets that waited for them leave. -/
def execCredit (p : PortId) (cls : Fin 5) (layer : Fin 4) (units : Nat) (s : State) : Host.Outcome State Fault Refusal :=
  act s (clocked fun s =>
    if !s.portRuns p.val then s
    else
      let key := creditKey cls.val layer.val
      (s.updPort p.val fun x =>
        { x with
          rx := x.rx.eraseP fun k => k.body == .credit cls layer units
          credits := Sp.put x.credits key (Sp.get (fun _ => 0) x.credits key + units) }).pump p)

/-! ## Transit (R434-R436) -/

/-- The LAYER of a packet at the device that has received it: one more when the DL bit of the hop that brought it is 1 (R435). -/
def rxLayer (k : Packet) : BitVec 2 :=
  if k.hop.toNat ≠ 0 ∧ k.dl.getLsbD (k.hop.toNat - 1) then k.layer + 1 else k.layer

/-- PACKET_FORWARD: the packet leaves by the port that its next nibble names, or is dropped. One that has reached its destination is none of
transit's. DESIGN CHOICE, log 94. -/
def packetForward (k : Packet) (s : State) : State :=
  let o := if 6 ≤ k.hop.toNat then 15 else pathNibble k.path k.hop.toNat
  if 10 ≤ k.type.toNat then (s.unload (· == k)).dropPacket o k
  else if h : o < 12 then
    let s := s.unload (· == k)
    if s.portLive o then s.enqueuePacket ⟨o, h⟩ { k with hop := k.hop + 1, layer := rxLayer k } else s.dropPacket o k
  else if o = 15 ∧ k.dst = s.ownPeer then s
  else (s.unload (· == k)).dropPacket o k

/-- PACKET_FORWARD. -/
def execPacketForward (k : Packet) (s : State) : Host.Outcome State Fault Refusal := act s (clocked (packetForward k))

/-! ## Routes (R437, R438) -/

/-- No request of this device to a peer is in flight: those that wait at the port unit have not left. -/
def State.peerQuiet (s : State) (p : PeerId) : Bool :=
  let here (f : Flight) : Bool := match f.way.target with | .peer q _ => q == p | _ => false
  (s.mem.acks ++ s.xlat.flights).all fun f => !here f || s.dray.parked.any fun x => x.2.tag == f.tag

/-- A written entry takes effect. -/
def State.applyRoute (s : State) (x : PeerId × Bool × W32) : State :=
  if x.2.1 then { s with dray := { s.dray with alt := Sp.put s.dray.alt x.1.toNat x.2.2 } }
  else { s with dray := { s.dray with pri := Sp.put s.dray.pri x.1.toNat x.2.2 } }

/-- A peer goes over to its alternate path, or returns to its primary: FAILOVER. -/
def State.switchPath (s : State) (p : PeerId) : State :=
  let toAlt := !s.dray.onAlt.contains p
  let s := { s with dray := { s.dray with onAlt := if toAlt then p :: s.dray.onAlt else s.dray.onAlt.filter (· != p) } }
  s.portRec (firstPort (s.route_ false p)) 4 p.toNat (if toAlt then 1 else 0)

/-- The requests to a peer that have waited at the port unit leave in order. -/
def State.unpark (s : State) (p : PeerId) : State :=
  let l := s.dray.parked.filter fun x => x.1.dst == p
  (l.map (·.1)).foldl State.sendOn { s with dray := { s.dray with parked := s.dray.parked.filter fun x => x.1.dst != p } }

/-- ROUTE_CHANGE: what waits for a peer takes effect when nothing is in flight to it. A failover or return that is due no longer is withdrawn.
DEDUCED, log 95. -/
def State.routeChange (s : State) (p : PeerId) : State :=
  if !s.peerQuiet p then s
  else
    let s := (s.dray.pendRt.filter fun x => x.1 == p).foldl State.applyRoute s
    let s := { s with dray := { s.dray with
      pendRt := s.dray.pendRt.filter fun x => x.1 != p, change := s.dray.change.filter (· != p) } }
    let s := if s.dray.pendRt.isEmpty then s.setFld .dryRtSel 0 31 31 0 else s
    (if s.failoverDue p then s.switchPath p else s).unpark p

/-- ROUTE_CHANGE. -/
def execRouteChange (p : PeerId) (s : State) : Host.Outcome State Fault Refusal := act s (clocked fun s => s.routeChange p)

/-- A write to DRY_RT_PRI or DRY_RT_ALT: it waits for R438, with BUSY, or applies at once. -/
def State.routeWrite (s : State) (alt : Bool) (v : W32) : State :=
  let p : PeerId := BitVec.ofNat 12 (s.fld .dryRtSel 0 11 0)
  let v := v &&& maskOf (fun _ => true) (RegKind.fields .dryRtPri)
  let s := { s with dray := { s.dray with pendRt := s.dray.pendRt ++ [(p, alt, v)] } }
  (s.setFld .dryRtSel 0 31 31 1).routeChange p

/-- DRY_RT_WRITE. -/
def execDryRtWrite (alt : Bool) (v : W32) (s : State) : Host.Outcome State Fault Refusal :=
  act s (clocked fun s => s.routeWrite alt v)

/-- PATH_FAILOVER: the primary's hop-0 port does not carry packets and AV is 1; or that port is UP again (R437). -/
def pathFailover (p : PeerId) (s : State) : State :=
  if s.failoverDue p then
    { s with dray := { s.dray with change := if s.dray.change.contains p then s.dray.change else p :: s.dray.change } }.routeChange p
  else { s with dray := { s.dray with change := s.dray.change.filter (· != p) } }

/-- PATH_FAILOVER. -/
def execPathFailover (p : PeerId) (s : State) : Host.Outcome State Fault Refusal := act s (clocked (pathFailover p))

/-! ## Requests of peers (09 R285, R307) -/

/-- A request performed at its DPA for requester `q`: the outcome, and the data of a read or the old value of an atomic operation. -/
def State.serve (s : State) (q : Requester) (r : MemReq) : State × ExtStatus × List Byte :=
  match r.op with
  | .read =>
    match s.dpaRead q r.dpa r.len r.watched with
    | (s, .ok d) => (s, .ok, d)
    | (s, .bad sub) => (s, subStatus sub, [])
  | .write d =>
    match s.dpaWrite q r.dpa d r.watched with
    | (s, .ok _) => (s, .ok, [])
    | (s, .bad sub) => (s, subStatus sub, [])
  | .atomic aop wide operand expect =>
    match s.dpaAtomic q r.dpa (if wide then 8 else 4) r.watched aop operand expect with
    | (s, .ok d) => (s, .ok, d)
    | (s, .bad sub) => (s, subStatus sub, [])

/-- PEER_REQUEST: lot-checked and performed, and answered. One for a stack in self-refresh is answered when the stack serves it, and stays in its
receive buffer while the queue has no room (13 R414). -/
def peerRequest (src : PeerId) (tag : Nat) (q : MemReq) (s : State) : State :=
  let c := s.sleeps q.dpa
  if c.any s.chanFull then s
  else
    let s := s.unload fun k => k.type.toNat ≤ 2 && k.src == src && k.tag == tag
    match s.serve { hmk := q.hmk, smask := q.smask, peer := true } q with
    | (s, st, d) =>
      let u : ReqUnit := { tag, dpa := q.dpa, len := q.len, hmk := q.hmk, smask := q.smask, watched := q.watched, outcome := st }
      match c with
      | some c => s.holdAt c (.peer src u d)
      | none => s.sendTo src 3 (.req u) d

/-- PEER_REQUEST. -/
def execPeerRequest (src : PeerId) (tag : Nat) (q : MemReq) (s : State) : Host.Outcome State Fault Refusal :=
  act s (clocked (peerRequest src tag q))

/-! ## Responses -/

/-- The responses that a lathe has no use for any more are dropped. -/
def State.latheReplies (s : State) (b : BenchId) : State :=
  if (s.bench b).lathe.wait = some .ext then s
  else { s with xlat := { s.xlat with replies := s.xlat.replies.filter fun r => r.flight.who.eng != .lathe b } }

/-- Something that engine `e` may wait for outside the device has come: it goes on as far as it may. -/
def engineGo (e : Engine) (s : State) : State :=
  match e with
  | .core b => coreGo b s
  | .lathe b => (latheGo b s).latheReplies b
  | .ladle b => ladleSettle b (s.updForge b fun x => { x with ladle := x.ladle.map fun o => if o.wait = some .ext then { o with wait := none } else o })
  | .carter c => carterGo c s
  | .quarter q => s.collGo q

/-- A write of an engine has failed after the engine has gone on: it fails the descriptor of a carter (10 R324), the row of a drain (10 R329),
or the collective of a quarter (14 R443). -/
def writeFailed (f : Flight) (sub : Byte) (s : State) : State :=
  match f.who.eng with
  | .ladle b => ladleFail b f.who.run sub s
  | .carter c => carterGo c (carterWriteFailed c f (busCode sub) s)
  | .quarter q => s.collFail q (busCode sub) 0 f.who.el (some whyError)
  | _ => s

/-- The request `f` has left for peer `p` under tag `tag`. -/
def Flight.toPeer (f : Flight) (p : PeerId) (tag : Nat) : Bool :=
  f.tag == tag && match f.way.target with | .peer q _ => q == p | _ => false

/-- PEER_RESPONSE: it acknowledges the write with its tag, or answers the read or atomic operation, whose engine goes on. DEDUCED, log 42. -/
def peerResponse (tag : Nat) (p : PeerId) (st : ExtStatus) (data : Cells) (s : State) : State :=
  let s := s.unload fun k => k.type == 3 && k.src == p && k.tag == tag
  match s.mem.acks.find? (·.toPeer p tag), s.xlat.flights.find? (·.toPeer p tag) with
  | some f, _ =>
    let s := { s with mem := { s.mem with acks := s.mem.acks.erase f } }
    if st = .ok then engineGo f.who.eng s else writeFailed f (extSub st) s
  | none, some f => engineGo f.who.eng ((s.learnPeer p data).answer f st)
  | none, none => s

/-- PEER_RESPONSE. -/
def execPeerResponse (tag : Nat) (p : PeerId) (st : ExtStatus) (data : Cells) (s : State) : Host.Outcome State Fault Refusal :=
  act s (clocked (peerResponse tag p st data))

end Sys2Proof.Machine
end

