-- ==== Sys2Proof/Machine/XlatOps.lean ====
section
/-! DEFINITION. The translation unit's own steps (09 R281-R305): walks, retries, fault records, doorbells, the end of an
invalidation and writes of lot entries; and the error rings, which follow R294 (12 R389). -/

namespace Sys2Proof.Machine

/-- TRANSLATION_WALK: a miss of engine `e` joins an entry, or walks and fills its caches, or faults. -/
def execTranslationWalk (e : Engine) (hmk : BitVec 12) (dva : W64) (acc : Acc) (s : State) : Host.Outcome State Fault Refusal :=
  act s (clocked fun s => (s.translate e hmk dva acc).1)

/-! ## Waiting engines walk again (R293, R295) -/

/-- A wait `x` is on `w`: on that entry, or on an entry that it joined while it waited for quota (R293). DEDUCED, log 47. -/
def EngWait.on (w x : EngWait) : Bool := x == w || x == .quota

/-- The lathe's wait, if it satisfies `p`, is over, and the head instruction goes on if the lathe may run. -/
def latheRetry (b : BenchId) (p : EngWait → Bool) (s : State) : State :=
  let l := (s.bench b).lathe
  if l.wait.any p then
    let s := s.updLathe b fun l => { l with wait := none }
    match l.queue with
    | h :: _ => if s.latheOn b then latheRun b h {} s else s
    | [] => s
  else s

/-- The ladle's wait, if it satisfies `p`, is over, and the row is handed over. -/
def ladleRetry (b : BenchId) (p : EngWait → Bool) (s : State) : State :=
  match (s.bench b).forge.ladle with
  | some o => if o.wait.any p then ladleHandoff b (s.updForge b fun x => { x with ladle := some { o with wait := none } }) else s
  | none => s

/-- Engine `e`, which waited on `w`, walks again; `page` is that of the entry. -/
def retryEngine (w : EngWait) (page : Nat) (s : State) (e : Engine) : State :=
  match e with
  | .core b => coreRetry b s
  | .lathe b => latheRetry b w.on s
  | .ladle b => ladleRetry b w.on s
  | .carter c => carterRetry c (fun x a => x == w || (x == .quota && a.toNat / 65536 == page)) s
  | .quarter q => s.collRetry q w.on

/-- QUOTA_WAIT_RETRY: the misses that wait without a record walk again, in order; one that still finds no entry waits on. -/
def execQuotaWaitRetry (s : State) : Host.Outcome State Fault Refusal :=
  act s (clocked fun s =>
    let l := (s.xlat.quota.map (·.engine)).eraseDups
    l.foldl (retryEngine .quota 0) { s with xlat := { s.xlat with quota := [] } })

/-! ## Rings of records (R294; 12 R389) -/

/-- The registers of a function's record ring. -/
structure RecRing where
  lo : RegKind
  hi : RegKind
  cfg : RegKind
  head : RegKind
  tail : RegKind

/-- The fault ring (09) and the error ring (12). -/
def faultRing : RecRing := ⟨.xltFringBaseLo, .xltFringBaseHi, .xltFringCfg, .xltFringHead, .xltFringTail⟩
def errorRing : RecRing := ⟨.pexEringBaseLo, .pexEringBaseHi, .pexEringCfg, .pexEringHead, .pexEringTail⟩

/-- The ring is enabled and not full. -/
def State.recRoom (s : State) (k : RecRing) (f : Nat) : Bool :=
  s.fld k.cfg f 31 31 == 1
    && (s.reg ⟨k.tail, f, 0⟩ - s.reg ⟨k.head, f, 0⟩).toNat != 2 ^ log2At4 (s.fld k.cfg f 19 16)

/-- Writes the next record of a ring; its words depend on PHASE and on the record's number. -/
def State.recPut (s : State) (k : RecRing) (f : Nat) (src : VecSrc) (words : Nat → W32 → List W64) : State :=
  let n := s.reg ⟨k.tail, f, 0⟩
  let log := log2At4 (s.fld k.cfg f 19 16)
  let a := s.base52 k.lo k.hi f 12 + 32 * (n.toNat % 2 ^ log)
  let s := s.ownPut f a ((words (phaseOf n log) n).flatMap fun w => leBytes 8 w.toNat)
  let s := s.setReg ⟨k.tail, f, 0⟩ (n + 1)
  if s.fld k.cfg f 30 30 = 1 then s.raiseVector f (s.fld k.cfg f 10 0) src else s

/-- FAULT_RECORD_WRITE (09 table 9.8). -/
def faultRecordWrite (f : FnId) (s : State) : State :=
  match Sp.get (fun _ => []) s.xlat.fltq f.val with
  | [] => s
  | r :: rest =>
    if s.recRoom faultRing f.val then
      let s := { s with xlat := { s.xlat with fltq := Sp.put s.xlat.fltq f.val rest } }
      s.recPut faultRing f.val .fault fun ph _ => [r.w0, r.w1, r.w2, BitVec.ofNat 64 (ph * 2 ^ 63 + r.stamp.toNat)]
    else s

/-- FAULT_RECORD_WRITE. -/
def execFaultRecordWrite (f : FnId) (s : State) : Host.Outcome State Fault Refusal := act s (clocked (faultRecordWrite f))

/-- ERROR_RECORD_WRITE (12 table 12.9). -/
def errorRecordWrite (f : FnId) (s : State) : State :=
  match Sp.get (fun _ => []) s.errq f.val with
  | [] => s
  | r :: rest =>
    if s.recRoom errorRing f.val then
      ({ s with errq := Sp.put s.errq f.val rest }).recPut errorRing f.val .error fun ph n =>
        [BitVec.ofNat 64 (ph * 2 ^ 63 + r.src.toNat * 2 ^ 48 + r.event.toNat * 2 ^ 32 + n.toNat),
          BitVec.ofNat 64 (r.hmk.toNat * 2 ^ 52 + r.fn.toNat * 2 ^ 46 + r.unit_.toNat), r.w2, r.w3]
    else s

/-- ERROR_RECORD_WRITE. -/
def execErrorRecordWrite (f : FnId) (s : State) : Host.Outcome State Fault Refusal := act s (clocked (errorRecordWrite f))

/-! ## The fault doorbells (R295-R297) -/

/-- The entry that a doorbell value of function `f` names, if R297 lets it act. DEDUCED, log 79. -/
def State.faultNamed (s : State) (f : FnId) (v : W32) : Option Nat :=
  let n := bits v 7 0
  let e := s.fault n
  if s.doorbellServes f && e.used && v.toNat / 256 == e.gen.toNat && (s.fnOf e.hmk).toNat == f.val then some n else none

/-- Frees entry `n`; its generation stays. -/
def State.freeFault (s : State) (n : Nat) : State := s.setFault n { s.fault n with used := false, waiters := [] }

/-- A FAULT_RESOLVED doorbell: the entry is freed, and every waiting engine walks again. -/
def State.resolveFault (s : State) (f : FnId) (v : W32) : State :=
  match s.faultNamed f v with
  | none => s
  | some n => (((s.fault n).waiters.map (·.1)).eraseDups).foldl (retryEngine (.fault n) (s.fault n).page) (s.freeFault n)

/-- A lathe's wait on entry `n` is abandoned: element VPI raises (R296); of a bench whose A-clock stands, when it goes on. -/
def latheAbandon (b : BenchId) (n page : Nat) (sub : Byte) (dva : W64) (s : State) : State :=
  let l := (s.bench b).lathe
  match l.queue with
  | h :: _ =>
    if !l.wait.any (EngWait.fault n).on then s
    else if !s.aclock b then s.later (.abandon (.lathe b) n page sub dva)
    else
      s.latheRaise b { l with wait := none } h l.vpi { code := causeTranslation, sub, addr := dva, info := BitVec.ofNat 32 l.vpi }
  | [] => s

/-- A ladle's wait on entry `n` is abandoned: its row fails (R296; 10 R329); of a bench whose A-clock stands, when it goes on. -/
def ladleAbandon (b : BenchId) (n page : Nat) (sub : Byte) (dva : W64) (s : State) : State :=
  match (s.bench b).forge.handing with
  | some (o, d) =>
    if !o.wait.any (EngWait.fault n).on then s
    else if !s.aclock b then s.later (.abandon (.ladle b) n page sub dva)
    else
      let s := s.updForge b fun x => { x with ladle := some { o with wait := none } }
      ladleSettle b (s.rowFailed b o.rows (d.rowCause o.rows causeTranslation sub))
  | none => s

/-- A waiter of an abandoned entry receives Translation fault with the entry's subcause, or an error completion (R296). -/
def abandonEngine (n page : Nat) (sub : Byte) (s : State) (w : Engine × W64) : State :=
  match w.1 with
  | .core b => coreAbandon b n page sub s
  | .lathe b => latheAbandon b n page sub w.2 s
  | .ladle b => ladleAbandon b n page sub w.2 s
  | .carter c => carterAbandon c n page sub s
  | .quarter q => s.collAbandon q n page sub w.2

/-- Entry `n` is abandoned. -/
def State.abandonFault (s : State) (n : Nat) : State :=
  let e := s.fault n
  e.waiters.foldl (abandonEngine n e.page e.sub) (s.freeFault n)

/-- A FAULT_ABANDONED doorbell. -/
def State.dropFault (s : State) (f : FnId) (v : W32) : State :=
  match s.faultNamed f v with
  | none => s
  | some n => s.abandonFault n

/-! ## Invalidations (R299-R301) -/

/-- INVALIDATE: the counting-house fetches this descriptor from the next slot of ring `r` and passes it on. DEDUCED, log 80. -/
def execInvalidate (r : RingId) (header w1 w2 w3 : W64) (s : State) : Host.Outcome State Fault Refusal :=
  act s (clocked fun s =>
    if s.servesRing r && wbits header 63 60 == 5 && decide (s.xlat.inval.length < 64) then
      let n := s.reg ⟨.cthRingFetch, r.val, 0⟩
      (s.setReg ⟨.cthRingFetch, r.val, 0⟩ (n + 1)).passOn r n [header, w1, w2, w3]
    else s)

/-- The requests in flight (R298): those whose data have not returned, writes to peers that are not acknowledged, and writes to host memory
that have not left the port (08 table 8.3). -/
def State.underway (s : State) : List Flight :=
  s.xlat.flights ++ (s.held.filterMap fun h => h.reply?.map (·.flight)) ++ s.mem.acks
    ++ s.portq.flatMap fun q => q.2.filterMap fun i => match i with | .write who .. => who | _ => none

/-- A request in flight delays the record of invalidation `i` (R301). -/
def Invalidation.delayedBy (i : Invalidation) (f : Flight) : Bool :=
  let older := (i.epoch - f.way.epoch).toNat
  let page := f.dva.toNat / 65536
  decide (0 < older) && decide (older < 2 ^ 31) && (i.hmk.isNone || i.hmk == some f.hmk) && decide (i.page ≤ page)
    && decide (page < i.page + i.pages)

/-- INVALIDATION_COMPLETE: the entry ends with OK and its epoch; its record is written at once if it is the first that waits. -/
def invalidationComplete (epoch : W32) (s : State) : State :=
  match s.xlat.inval.find? fun i => i.epoch = epoch with
  | none => s
  | some i =>
    if s.underway.any i.delayedBy then s
    else ({ s with xlat := { s.xlat with inval := s.xlat.inval.filter fun j => j.epoch != epoch } } : State).invalDone i.ring i.seq epoch

/-- INVALIDATION_COMPLETE. -/
def execInvalidationComplete (epoch : W32) (s : State) : Host.Outcome State Fault Refusal :=
  act s (clocked (invalidationComplete epoch))

/-! ## Posted writes (16 R475) and lot entries (R305) -/

/-- The BUSY bit of a block with posted fields (16 table 16.3). -/
def State.setBusy (s : State) (blk : Nat) (v : Nat) : State :=
  match blk with
  | 4 => s.setFld .shlFilt 0 31 31 v
  | 10 => s.setFld .hmkLotStat 0 0 0 v
  | 14 => s.setFld .yrdMarginCtl 0 30 30 v
  | _ => s

/-- A block with posted fields is BUSY. -/
def State.isBusy (s : State) (blk : Nat) : Bool :=
  match blk with
  | 4 => s.fld .shlFilt 0 31 31 == 1
  | 10 => s.fld .hmkLotStat 0 0 0 == 1
  | 14 => s.fld .yrdMarginCtl 0 30 30 == 1
  | _ => false

/-- A posted write is discarded: MLD_STATUS.PDROP, and DBLK for the first. -/
def State.dropPosted (s : State) (blk : Nat) : State :=
  if s.fld .mldStatus 0 30 30 = 1 then s else (s.setFld .mldStatus 0 30 30 1).setFld .mldStatus 0 23 16 blk

/-- A write to a posted field: BUSY, until it lands; or discarded while the block is BUSY. -/
def State.post (s : State) (blk off : Nat) (v : W32) : State :=
  if s.isBusy blk then s.dropPosted blk
  else { s.setBusy blk 1 with posted := Sp.put s.posted blk (off, v, s.fld .hmkLotSel 0 26 0) }

/-- LOT_ENTRY_WRITE: a write to HMK_LOT_DATA. -/
def execLotEntryWrite (v : W32) (s : State) : Host.Outcome State Fault Refusal :=
  act s (clocked fun s => s.post 10 (Reg.off ⟨.hmkLotData, 0, 0⟩) (v &&& maskOf (fun _ => true) RegKind.hmkLotData.fields))

end Sys2Proof.Machine
end

