-- ==== Sys2Proof/Machine/Host.lean ====
section
/-! DEFINITION. The host port (12 R373-R396; 16 R479): links, configuration requests, completions, resets of links and functions,
and the BAR4 aperture. -/

namespace Sys2Proof.Machine

/-- Steps of the host port: they need no root clock, but PERST_N must be released (17 R483). -/
def live (f : State → State) (s : State) : State := if s.sec.perst then s else f s

/-! ## Links (R373-R375, R393, R394) -/

/-- Lanes of link `k` under the bifurcation strap (table 12.1, 18 table 18.7). -/
def State.linkLanes (s : State) (k : LinkId) : Nat :=
  match s.sec.straps.pexbif.toNat with
  | 1 => if k.val < 2 then 8 else 0
  | 2 => 4
  | _ => if k.val = 0 then 16 else 0

/-- The functions of link `k`, lowest first. -/
def State.linkFns (s : State) (k : LinkId) : List FnId := (List.finRange 64).filter fun f => s.linkOf f.val == k

/-- Link `k` may train: it has lanes, it holds a function, and links 1-3 wait for LGO and for READY. -/
def State.mayTrain (s : State) (k : LinkId) : Bool :=
  s.linkLanes k != 0 && !(s.linkFns k).isEmpty && (k.val == 0 || (s.fld .pexFmap 0 31 31 == 1 && s.ready))

/-- A generation and width that the link can negotiate. -/
def State.linkMode (s : State) (k : LinkId) (gen : BitVec 3) (width : BitVec 5) : Bool :=
  gen != 0 && width != 0 && decide (width.toNat ≤ s.linkLanes k) && [1, 2, 4, 8, 16].contains width.toNat

/-- PEX_LINKk_STAT's FLIT, GEN and WIDTH. DEDUCED, log 81. -/
def State.setLinkMode (s : State) (k : LinkId) (flit gen width : Nat) : State :=
  ((s.setFld .pexLinkStat k.val 30 30 flit).setFld .pexLinkStat k.val 29 27 gen).setFld .pexLinkStat k.val 26 22 width

/-- LINK_TRAINING: a link that is down negotiates; flit mode always at 64 and 128 GT/s. -/
def execLinkTraining (k : LinkId) (gen : BitVec 3) (width : BitVec 5) (flit : Bool) (s : State) :
    Host.Outcome State Fault Refusal :=
  act s (live fun s =>
    if s.linkUp k || !s.mayTrain k || !s.linkMode k gen width then s
    else s.setLinkMode k (if flit || decide (6 ≤ gen.toNat) then 1 else 0) gen.toNat width.toNat)

/-- LINK_RECOVERY: only the link's status changes (R393). 64 and 128 GT/s need flit mode. -/
def execLinkRecovery (k : LinkId) (gen : BitVec 3) (width : BitVec 5) (s : State) : Host.Outcome State Fault Refusal :=
  act s (live fun s =>
    if !s.linkUp k || !s.linkMode k gen width || (decide (6 ≤ gen.toNat) && s.fld .pexLinkStat k.val 30 30 == 0) then s
    else
      ((s.setFld .pexLinkStat k.val 29 27 gen.toNat).setFld .pexLinkStat k.val 26 22 width.toNat).satAdd .pexLinkStat k.val 15 0 1)

/-- A record of the port about link `k`. -/
def State.linkRec (s : State) (k : LinkId) (event : BitVec 16) : State :=
  s.record { src := 6, event, unit_ := BitVec.ofNat 16 k.val }

/-- LINK_DOWN: the link is in DL_Down, and what is bound for it waits. -/
def execLinkDown (k : LinkId) (s : State) : Host.Outcome State Fault Refusal :=
  act s (live fun s =>
    if s.linkUp k then ((s.setFld .pexLinkStat k.val 31 31 0).setLinkMode k 0 0 0).linkRec k 1 else s)

/-- A held item leaves the port. -/
def State.portLeave (s : State) : PortItem → State
  | .write _ fn q a data => s.farWrite (.host fn q a) data
  | .msix f vec =>
    let e := Sp.get (fun _ => ({} : MsixEntry)) (s.fn f.val).msix vec
    s.emit (.msix f vec e.addr e.data)

/-- The engines whose writes are among held items. -/
def portEngines (l : List PortItem) : List Engine :=
  (l.filterMap fun i => match i with | .write (some f) .. => some f.who.eng | _ => none).eraseDups

/-- LINK_UP: a trained link reaches DL_Up, and waiting traffic leaves in its original order. Engines that waited for their writes to leave go
on. -/
def execLinkUp (k : LinkId) (s : State) : Host.Outcome State Fault Refusal :=
  act s (live fun s =>
    if s.linkUp k || s.fld .pexLinkStat k.val 29 27 == 0 then s
    else
      let l := Sp.get (fun _ => []) s.portq k.val
      let s := { s.setFld .pexLinkStat k.val 31 31 1 with portq := Sp.erase s.portq k.val }
      (portEngines l).foldl (fun s e => engineGo e s) ((l.foldl State.portLeave s).linkRec k 2))

/-! ## Completions (R392) -/

/-- The link of a request to host memory. -/
def State.flightLink (s : State) (f : Flight) : Option LinkId := f.way.target.fn?.map fun n => s.linkOf n.toNat

/-- A completion with tag `tag` and an outcome ends the request to host memory that has left the port under that tag, and its engine goes on. -/
def State.complete_ (s : State) (tag : Nat) (st : ExtStatus) (host : Cells) : State :=
  match s.xlat.flights.find? fun f => f.tag == tag && (s.flightLink f).any s.linkUp with
  | some f => engineGo f.who.eng ((s.learnHost host).answer f st)
  | none => s

/-- HOST_COMPLETION: data, LINK (Unsupported Request or Completer Abort), POISON or TIMEOUT, for a request that has left the port. -/
def execHostCompletion (tag : Nat) (st : ExtStatus) (host : Cells) (s : State) : Host.Outcome State Fault Refusal :=
  act s (clocked fun s => s.complete_ tag st host)

/-- COMPLETION_TIMEOUT: the range of Device Control 2 has passed. -/
def execCompletionTimeout (tag : Nat) (s : State) : Host.Outcome State Fault Refusal :=
  act s (clocked fun s => s.complete_ tag .timeout [])

/-! ## Function Level Reset (R396) -/

/-- A ring that has been configured or holds something; a reset finds nothing in any other. -/
def State.ringUsed (s : State) (r : RingId) : Bool :=
  (Sp.find s.regs (Reg.off ⟨.cthRingCfg, r.val, 0⟩)).isSome || (Sp.find s.rings r.val).isSome

/-- The rings of function `f` that are in use. -/
def State.fnRings (s : State) (f : FnId) : List RingId := (List.finRange 4096).filter fun r => s.ringFn r == f.val && s.ringUsed r

/-- The job slots of function `f`: those bound to its rings. -/
def State.fnSlots (s : State) (f : FnId) : List SlotId :=
  (List.finRange 64).filter fun n =>
    match s.slotRing n with
    | some r => s.streamFn r == f.val
    | none => false

/-- A ring is disabled, and discards its records. -/
def State.ringMuted (s : State) (r : RingId) : State := (s.ringDisable r).updRing r fun g => { g with mute := true }

/-- The reset of function `f` itself: kernels, entries, fault-table entries, rings, and MSI-X state. DEDUCED, log 82. -/
def State.flr (s : State) (f : FnId) : State :=
  let s := (s.fnSlots f).foldl (fun s n => (s.updKernel n fun k => { k with silent := k.phase != .none }).slotAbort n) s
  let s := (s.fnRings f).foldl State.ringMuted s
  let ns := (s.xlat.faults.filter fun e => e.2.used && (s.fnOf e.2.hmk).toNat == f.val).map (·.1)
  let s := ns.foldl State.abandonFault s
  let s := (s.setFld .xltFringCfg f.val 31 31 0).setFld .pexEringCfg f.val 31 31 0
  let s := s.updFn f.val fun x => { x with msixEnable := false, msix := [], pba := [], due := [] }
  { s with
    xlat := { s.xlat with fltq := Sp.erase s.xlat.fltq f.val }
    errq := Sp.erase s.errq f.val }

/-- The lowest function of link `k`: the PF, or the link function (R374). -/
def State.linkFirst (s : State) (k : LinkId) : Option FnId := (s.linkFns k).head?

/-- The virtual functions of link `k`. -/
def State.linkVfs (s : State) (k : LinkId) : List FnId := (s.linkFns k).tail

/-- VF Enable is cleared, and every VF of the link is reset. -/
def State.vfOff (s : State) (k : LinkId) : State :=
  match s.linkFirst k with
  | none => s
  | some f => (s.linkVfs k).foldl State.flr (s.updFn f.val fun x => { x with vfEnable := false })

/-- FUNCTION_LEVEL_RESET. -/
def execFunctionLevelReset (f : FnId) (s : State) : Host.Outcome State Fault Refusal :=
  act s (live fun s =>
    let k := s.linkOf f.val
    let s := s.flr f
    if s.linkFirst k = some f then s.vfOff k else s)

/-! ## Link resets (R395) -/

/-- The PCI Express configuration state of function `f` returns to its reset state. -/
def State.configReset (s : State) (f : FnId) : State := s.updFn f.val fun x => { due := x.due }

/-- A reset of link `k`. -/
def State.linkReset (s : State) (k : LinkId) : State :=
  let fs := s.linkFns k
  let s := fs.foldl State.configReset s
  if s.fld .pexLinkCfg 0 31 31 = 1 then s else fs.foldl State.flr s

/-- HOT_RESET, and a Link Disable. -/
def execHotReset (k : LinkId) (s : State) : Host.Outcome State Fault Refusal := act s (live fun s => s.linkReset k)

/-- PER_LINK_RESET: PERST1_N to PERST3_N. -/
def execPerLinkReset (k : LinkId) (s : State) : Host.Outcome State Fault Refusal :=
  act s (live fun s => if k.val = 0 then s else s.linkReset k)

/-- A held item is discarded: an engine's write ends with TIMEOUT, and a record or message is lost. -/
def State.portDrop (s : State) : PortItem → State
  | .write (some f) .. => writeFailed f subTimeout s
  | _ => s

/-- HOLD_TIMEOUT: what still waits for the link ends, and the link's functions are reset. -/
def execHoldTimeout (k : LinkId) (s : State) : Host.Outcome State Fault Refusal :=
  act s (live fun s =>
    if s.linkUp k then s
    else
      let fs := s.xlat.flights.filter fun f => s.flightLink f == some k
      let s := fs.foldl (fun s f => s.answer f .timeout) s
      let s := ((fs.map (·.who.eng)).eraseDups).foldl (fun s e => engineGo e s) s
      let l := Sp.get (fun _ => []) s.portq k.val
      let s := { s with portq := Sp.erase s.portq k.val }
      let s := (portEngines l).foldl (fun s e => engineGo e s) (l.foldl State.portDrop s)
      s.linkReset k)

/-! ## Configuration requests (R377) -/

/-- Function `f` answers configuration requests: the PF always; a VF only while VF Enable is 1; others from READY (17 R484). -/
def State.fnVisible (s : State) (f : FnId) : Bool :=
  s.linkUp (s.linkOf f.val) &&
    (f.val == 0 || (s.ready &&
      match s.linkFirst (s.linkOf f.val) with
      | some g => g == f || (s.fn g.val).vfEnable
      | none => false))

/-- Function `f` is the PF or a link function. -/
def State.fnPhysical (s : State) (f : FnId) : Bool := s.linkFirst (s.linkOf f.val) == some f

/-- Pending vectors that are not masked send when MSI-X is enabled (R391). DEDUCED, log 83. -/
def State.sendPending (s : State) (f : FnId) : State :=
  let due := (s.fn f.val).pba.filter fun v => !(Sp.get (fun _ => ({} : MsixEntry)) (s.fn f.val).msix v).masked
  due.foldl (fun s v => s.sendVector f v) (s.updFn f.val fun x => { x with pba := x.pba.filter fun v => !due.contains v })

/-- Function `f` presents a capability of table 12.2. L0p is for flit mode, ECRC and 10-bit tags for the other. -/
def State.capPresent (s : State) (f : FnId) (c : PciCap) : Bool :=
  match c with
  | .sriov | .resizableBar => s.fnPhysical f
  | .l0p => s.fld .pexLinkStat (s.linkOf f.val).val 30 30 == 1
  | .powerD1D2 | .l0s | .msi | .intx | .atomicCompleter | .ats | .pri | .acs | .tph | .doe | .ide | .tdisp | .vpd | .serialNumber
  | .precisionTime => false
  | _ => true

/-- What a host reads of function `f`'s configuration space (R377). -/
def State.configRead (s : State) (f : FnId) (x : ConfigField) : Nat :=
  let bit (v : Bool) : Nat := if v then 1 else 0
  let pf := s.fnPhysical f
  match x with
  | .vendorId => 0x1F4D
  | .deviceId => if pf then 0x0256 else 0x0257
  | .classCode => 0x120000
  | .revisionId => 0x11
  | .totalVfs => if pf then (s.linkVfs (s.linkOf f.val)).length else 0
  | .firstVfOffset => bit pf
  | .vfStride => bit pf
  | .vfEnable => bit (s.fn f.val).vfEnable
  | .busMaster => bit (s.fn f.val).busMaster
  | .msixEnable => bit (s.fn f.val).msixEnable
  | .tableSize => s.tableSize f.val
  | .atomicRequester => bit (s.fn f.val).atomicRequester
  | .completionTimeout => (s.fn f.val).completionTimeout.toNat
  | .barSize => if pf then (s.fn f.val).barSize.toNat else 0
  | .maxPayload => 512
  | .maxReadRequest => 4096
  | .has c => bit (s.capPresent f c)
  | .other off => (Sp.get (fun _ => 0#32) (s.fn f.val).config off.toNat).toNat

/-- The host writes or reads a configuration register of function `f`. -/
def State.configWrite (s : State) (f : FnId) (w : ConfigWrite) : State :=
  match w with
  | .read x => s.emit (.config f x (s.configRead f x))
  | .busMaster v => s.updFn f.val fun x => { x with busMaster := v }
  | .msixEnable v =>
    let s := s.updFn f.val fun x => { x with msixEnable := v }
    if v then s.sendPending f else s
  | .vfEnable v =>
    if !s.fnPhysical f then s
    else if v then s.updFn f.val fun x => { x with vfEnable := true }
    else if (s.fn f.val).vfEnable then s.vfOff (s.linkOf f.val)
    else s
  | .atomicRequester v => s.updFn f.val fun x => { x with atomicRequester := v }
  | .completionTimeout r => s.updFn f.val fun x => { x with completionTimeout := r }
  | .barSize n => if s.fnPhysical f && decide (10 ≤ n.toNat) && decide (n.toNat ≤ 19) then s.updFn f.val fun x => { x with barSize := n } else s
  | .other off v => s.updFn f.val fun x => { x with config := Sp.put x.config off.toNat v }

/-- CONFIGURATION_REQUEST. A function that does not appear answers with Unsupported Request. PRESUMED, log 8. -/
def execConfigurationRequest (f : FnId) (w : ConfigWrite) (s : State) : Host.Outcome State Fault Refusal :=
  act s (live fun s =>
    if s.fnVisible f then s.configWrite f w
    else if s.linkUp (s.linkOf f.val) then s.emit (.unsupported (s.linkOf f.val))
    else s)

/-- An answer to the host goes out, or waits for a stack in self-refresh to serve its request (13 R414). -/
def State.answerHost (s : State) (c : Option Nat) (o : Out) : State :=
  match c with
  | some c => s.holdAt c (.out o)
  | none => s.emit o

/-! ## LGO and PEX_FNf_CTL (R375; 16 R479) -/

/-- LGO. -/
def execLgo (s : State) : Host.Outcome State Fault Refusal := act s (live fun s => s.setFld .pexFmap 0 31 31 1)

/-- A write of 0 to PEX_FNf_CTL.EN: the rings of the function stop under R386. -/
def State.fnDisable (s : State) (f : FnId) : State :=
  if f.val = 0 then s
  else if s.fld .pexFnCtl f.val 30 30 = 1 then (s.setFld .pexFnCtl f.val 29 29 0).setFld .pexFnCtl f.val 31 31 0
  else if s.fld .pexFnCtl f.val 28 28 = 0 then s.setFld .pexFnCtl f.val 31 31 0
  else
    let s := ((s.setFld .pexFnCtl f.val 30 30 1).setFld .pexFnCtl f.val 28 28 0).setFld .pexFnCtl f.val 31 31 0
    (s.fnRings f).foldl State.ringDisable s

/-- FUNCTION_DISABLE. -/
def execFunctionDisable (f : FnId) (s : State) : Host.Outcome State Fault Refusal := act s (clocked fun s => s.fnDisable f)

end Sys2Proof.Machine
end

