-- ==== Sys2Proof/Machine/Late.lean ====
section
/-! DEFINITION. What waits outside its engine goes on: responses, and what came for a bench while it stood still (01 R33, R34; 02 R86; 15
R453); and the commands that let a halted core go on. -/

namespace Sys2Proof.Machine

/-- The engines that may wait for something outside them: none waits that the state does not list. -/
def State.waiters (s : State) : List Engine :=
  (List.finRange 256).flatMap (fun b => if (Sp.find s.benches b.val).isSome then [.core b, .lathe b, .ladle b] else [])
    ++ (allCarters.filter fun c => (Sp.find s.carters (carterNum c)).isSome).map .carter
    ++ (List.finRange 4).map .quarter

/-- What waits outside its engine goes on, as far as it may. -/
def State.allGo (s : State) : State := s.waiters.foldl (fun s e => engineGo e s) s

/-- What came for a bench while it stood still happens; it waits on while the bench still stands. -/
def State.deliverOne (s : State) : Late → State
  | .retry b => coreRetry b s
  | .abandon e n page sub dva => abandonEngine n page sub s (e, dva)
  | .chime b bad => chimeEnd b bad s

/-- The bench for which something waits. -/
def Late.bench : Late → Option BenchId
  | .retry b | .chime b _ | .abandon (.core b) .. | .abandon (.lathe b) .. | .abandon (.ladle b) .. => some b
  | .abandon .. => none

/-- The core of bench `b` goes on: what has come for it meanwhile happens in order. -/
def State.coreDeliver (s : State) (b : BenchId) : State :=
  let mine (l : Late) : Bool := l.bench == some b
  engineGo (.core b) ((s.late.filter mine).foldl State.deliverOne { s with late := s.late.filter fun l => !mine l })

/-- A clock runs again: what has come meanwhile happens in order. -/
def State.deliver (s : State) : State := (s.late.foldl State.deliverOne { s with late := [] }).allGo

/-- HALT_RELEASE: a write of 0 to BEN_DBG_CTL.HALT. -/
def execHaltRelease (b : BenchId) (s : State) : Host.Outcome State Fault Refusal := act s fun s => (s.haltClear b).coreDeliver b

/-- STEP: a write of 1 to BEN_DBG_CTL.STEP. -/
def execStep (b : BenchId) (s : State) : Host.Outcome State Fault Refusal := act s fun s => (s.stepWrite b).coreDeliver b

end Sys2Proof.Machine
end

