-- ==== Sys2Proof/Machine/Dram.lean ====
section
/-! DEFINITION. The ingot and yard controllers (13 R398-R425): requests, scrubbing, refresh, temper sets, retraining, row repair,
relief, margins, self-refresh and bring-up. -/

namespace Sys2Proof

/-- The number of a channel: 8 s + c, or 128 + 32 g + c. -/
def Channel.num : Channel → Nat
  | .ingot s c => 8 * s.val + c.val
  | .yard g c => 128 + 32 * g.val + c.val

end Sys2Proof

namespace Sys2Proof.Machine

/-- Changes the controllers' services. -/
def State.updServ (s : State) (f : Services → Services) : State := { s with mem := { s.mem with serv := f s.mem.serv } }

/-- Channel `c` is in service: its stack or group is up, and it is one of the group's channels. -/
def State.chanUp (s : State) (c : Nat) : Bool :=
  if c < 128 then s.stackUp (c / 8) else s.groupUp ((c - 128) / 32) && decide ((c - 128) % 32 < s.grpChannels ((c - 128) / 32))

/-- A record of a memory event of channel `c`. -/
def State.memRec (s : State) (c : Nat) (event : BitVec 16) (w2 w3 : W64) : State :=
  s.record { src := chanSrc c, event, unit_ := chanUnit c, w2, w3 }

/-! ## Requests (R398, R414) -/

/-- A request as it reaches a controller: 64 or 128 bytes, aligned; an atomic operation is of 4 or 8 bytes (08 R264). -/
def State.ctrlRequest (s : State) (q : MemReq) : Bool :=
  (s.route q.dpa).isSome &&
    match q.op with
    | .atomic _ wide _ _ => q.dpa % (if wide then 8 else 4) == 0
    | .read => (q.len == 64 || q.len == 128) && q.dpa % q.len == 0
    | .write d => (d.length == 64 || d.length == 128) && q.dpa % d.length == 0

/-- MEMORY_REQUEST, after the errors that have arisen: a request is checked against its lot and performed. One for a stack in self-refresh joins the
queue of its channel, and its answer waits; where the queue is full it waits in the mesh. DEDUCED, log 86. -/
def memoryRequest (q : MemReq) (arisen : LineFaults) (s : State) : State :=
  let s := s.arise arisen
  let c := s.sleeps q.dpa
  if !s.ctrlRequest q || c.any s.chanFull then s
  else
    match s.serve { hmk := q.hmk, smask := q.smask } q with
    | (s, st, d) => s.answerHost c (.served q.dpa st d)

/-- MEMORY_REQUEST. -/
def execMemoryRequest (q : CtrlReq) (s : State) : Host.Outcome State Fault Refusal :=
  act s (clocked (memoryRequest q.req q.arisen))

/-! ## Scrubbing (R412) -/

/-- Bytes of data in channel `c` (table 13.1). -/
def State.chanBytes (s : State) (c : Nat) : Nat :=
  if c < 128 then 0x10000000 else s.grpData ((c - 128) / 32) / s.grpChannels ((c - 128) / 32)

/-- SCRUB of a channel's controller. -/
def State.scrubOf (s : State) (c : Nat) : Nat :=
  if c < 128 then s.fld .ingCfg 0 7 0 else s.fld .yrdGrpCfg ((c - 128) / 32) 7 0

/-- Line number `n` (of 64 bytes by DPA) lies in the 128-byte line at offset `off` of channel `c`. -/
def State.lineAt (s : State) (c off n : Nat) : Bool :=
  match s.route (64 * n) with
  | some r => r.chan == c && r.off / 128 == off / 128
  | none => false

/-- SCRUB_READ: the next line of the channel is tested under both classes, after the errors that have arisen. DEDUCED, log 87. -/
def scrubRead (c : Nat) (arisen : LineFaults) (s : State) : State :=
  let s := s.arise arisen
  if !s.chanUp c || s.scrubOf c == 0 then s
  else
    let off := Sp.get (fun _ => 0) s.mem.serv.scrub c
    let next := if off + 128 < s.chanBytes c then off + 128 else 0
    let s := s.updServ fun x => { x with scrub := Sp.put x.scrub c next }
    let errs := s.mem.lineErr.filter fun e => s.lineAt c off e.1
    let watched := (s.mem.watched.filter fun e => s.lineAt c off e.1).length
    if errs.isEmpty && (watched == 0 || watched == 2) then s
    else if watched == 0 && errs.all (·.2 == .one) then errs.foldl (fun s e => s.correctLine e.1) s
    else s.memRec c 3 (BitVec.ofNat 64 off) 0

/-- SCRUB_READ. -/
def execScrubRead (c : Channel) (arisen : LineFaults) (s : State) : Host.Outcome State Fault Refusal :=
  act s (clocked (scrubRead c.num arisen))

/-! ## Refresh and temper sets (R413, R415-R417) -/

/-- REFRESH: a new refresh interval of the channel begins. -/
def execRefresh (c : Channel) (s : State) : Host.Outcome State Fault Refusal :=
  act s (clocked fun s =>
    if s.chanUp c.num then s.updServ fun x => { x with sliced := x.sliced.filter (· != c.num) } else s)

/-- The channels of group `g`. -/
def State.grpChans (s : State) (g : Nat) : List Nat := (List.range (s.grpChannels g)).map fun c => 128 + 32 * g + c

/-- The current band of group `g`, 0 to 3 for bands 1 to 4. -/
def State.band (s : State) (g : Nat) : Nat := s.fld .yrdGrpStat g 31 30

/-- Upper edges of bands 1 to 3 in degrees (table 13.4). -/
def bandEdge (b : Nat) : Int :=
  match b with
  | 0 => 50
  | 1 => 70
  | _ => 85

/-- The band that a rising temperature gives: the lowest from `b` up whose upper edge it does not pass. -/
def bandUp (t : Int) (b : Nat) : Nat :=
  if b < 1 ∧ t ≤ bandEdge 0 then 0 else if b < 2 ∧ t ≤ bandEdge 1 then max b 1 else if b < 3 ∧ t ≤ bandEdge 2 then max b 2 else 3

/-- The group enters band `b`. The first entry of a provisional band in service schedules a retrain of it (R417). -/
def State.enterBand (s : State) (g b : Nat) : State :=
  let s := s.setFld .yrdGrpStat g 31 30 b
  if s.fld .yrdGrpStat g (26 + b) (26 + b) = 1 ∧ !s.mem.serv.entered.contains (4 * g + b) then
    (s.updServ fun x =>
      { x with
        entered := (4 * g + b) :: x.entered
        retrain := x.retrain ++ (s.grpChans g).filter fun c => !x.retrain.contains c }).memRec (128 + 32 * g) 5
      (BitVec.ofNat 64 (b + 1)) 0
  else s

/-- DEVICE_TEMP_READOUT: the hottest case temperature of the group, in degrees Celsius. DEDUCED, log 89. -/
def deviceTempReadout (g : Nat) (t : Int) (s : State) : State :=
  if !s.groupUp g then s
  else
    let b := s.band g
    let cool := if b ≠ 0 ∧ t ≤ bandEdge (b - 1) - 3 then Sp.get (fun _ => 0) s.mem.serv.cool g + 1 else 0
    let setCool (n : Nat) (s : State) : State := s.updServ fun x => { x with cool := Sp.put x.cool g n }
    if b < bandUp t b then (setCool 0 s).enterBand g (bandUp t b)
    else if 10 ≤ cool then (setCool 0 s).enterBand g (b - 1)
    else setCool cool s

/-- DEVICE_TEMP_READOUT. -/
def execDeviceTempReadout (g : Fin 8) (hottest : Int) (s : State) : Host.Outcome State Fault Refusal :=
  act s (clocked (deviceTempReadout g.val hottest))

/-- The settings in a channel's temper set of band `b`. DESIGN CHOICE, log 88. -/
def State.setting (s : State) (c b : Nat) : Nat := Sp.get (fun _ => 0) s.mem.serv.sets (4 * c + b)

/-- TEMPER_SET_LOAD: in its refresh slot a channel loads the set of its group's band. -/
def temperSetLoad (c : Nat) (s : State) : State :=
  if !s.chanUp c then s
  else
    let b := s.band ((c - 128) / 32)
    s.updServ fun x => { x with loaded := Sp.put x.loaded c (b, s.setting c b) }

/-- TEMPER_SET_LOAD. -/
def execTemperSetLoad (g : Fin 8) (c : Fin 32) (s : State) : Host.Outcome State Fault Refusal :=
  act s (clocked (temperSetLoad (Channel.yard g c).num))

/-! ## Drift and retraining (R418, R419) -/

/-- A retrain of channel `c` is scheduled. -/
def State.schedule (s : State) (c : Nat) : State :=
  s.updServ fun x => { x with retrain := if x.retrain.contains c then x.retrain else x.retrain ++ [c] }

/-- DRIFT_CHECK: the eye centres differ by `diff` timing steps. -/
def execDriftCheck (g : Fin 8) (c : Fin 32) (diff : Nat) (s : State) : Host.Outcome State Fault Refusal :=
  act s (clocked fun s =>
    let n := (Channel.yard g c).num
    if s.chanUp n && decide (s.fld .yrdRetrain 0 5 0 < diff) then s.schedule n else s)

/-- PERIODIC_RETRAIN. -/
def execPeriodicRetrain (g : Fin 8) (c : Fin 32) (s : State) : Host.Outcome State Fault Refusal :=
  act s (clocked fun s =>
    let n := (Channel.yard g c).num
    if s.chanUp n && s.fld .yrdRetrain 0 31 16 != 0 then s.schedule n else s)

/-- A retrain of channel `c` has succeeded: its set of the current band holds new settings. -/
def State.trained (s : State) (c : Nat) : State :=
  let b := if c < 128 then 0 else s.band ((c - 128) / 32)
  s.updServ fun x =>
    { x with
      trainings := x.trainings + 1
      sets := Sp.put x.sets (4 * c + b) (x.trainings + 1)
      fails := Sp.erase x.fails c
      retrain := x.retrain.filter (· != c) }

/-- A retrain has failed: the settings stay, and the third in a row marks a yard channel FAILED. DEDUCED, log 90. -/
def State.trainFailed (s : State) (c : Nat) : State :=
  let k := Sp.get (fun _ => 0) s.mem.serv.fails c + 1
  let b := if c < 128 then 0 else s.band ((c - 128) / 32)
  let s := s.updServ fun x => { x with fails := Sp.put x.fails c k, retrain := x.retrain.filter (· != c) }
  let s := s.memRec c 4 (BitVec.ofNat 64 (b + 1)) (BitVec.ofNat 64 k)
  if 3 ≤ k ∧ 128 ≤ c then s.setFld .yrdGrpFail ((c - 128) / 32) ((c - 128) % 32) ((c - 128) % 32) 1 else s

/-- RETRAIN_SLICE: at most one slice of a channel in each refresh interval; a yard channel needs a scheduled retrain. -/
def retrainSlice (c : Nat) (r : SliceResult) (s : State) : State :=
  if !s.chanUp c || s.mem.serv.sliced.contains c || (decide (128 ≤ c) && !s.mem.serv.retrain.contains c) then s
  else
    let s := s.updServ fun x =>
      { x with sliced := c :: x.sliced, slices := Sp.put x.slices c (Sp.get (fun _ => 0) x.slices c + 1) }
    match r with
    | .more => s
    | .done => s.trained c
    | .failed => s.trainFailed c

/-- RETRAIN_SLICE. -/
def execRetrainSlice (c : Channel) (r : SliceResult) (s : State) : Host.Outcome State Fault Refusal :=
  act s (clocked (retrainSlice c.num r))

/-! ## Row repair (R420) -/

/-- Rows repaired in a bank. -/
def State.repaired (s : State) (c bank : Nat) : Nat := (s.mem.serv.repairs.filter fun r => r.1 == c && r.2.1 == bank).length

/-- A row is remapped to one of the bank's 4 spare rows. -/
def State.remapRow (s : State) (c bank row : Nat) : State :=
  if 4 ≤ s.repaired c bank then s else s.updServ fun x => { x with repairs := x.repairs ++ [(c, bank, row)] }

/-- Corrected errors of a row. -/
def State.rowCount (s : State) (c bank row : Nat) : Nat :=
  (s.mem.serv.rowErrs.filter fun e => e.1 == c && Config.rowOf e.1 e.2 == (bank, row)).length

/-- INGOT_ROW_REPAIR: a row that has come to ROWCE corrected errors is repaired; the repair takes one slice of the channel. DESIGN CHOICE, log 92. -/
def ingotRowRepair (c bank row : Nat) (s : State) : State :=
  if !s.chanUp c || s.mem.serv.sliced.contains c || decide (4 ≤ s.repaired c bank) || decide (s.rowCount c bank row < s.fld .ingCfg 0 25 16) then s
  else
    let s := (s.remapRow c bank row).updServ fun x =>
      { x with
        sliced := c :: x.sliced
        rowErrs := x.rowErrs.filter fun e => !(e.1 == c && Config.rowOf e.1 e.2 == (bank, row)) }
    (s.memRec c 9 (Config.repairData bank row) (BitVec.ofNat 64 (4 - s.repaired c bank))).addEntry 1
      (c / 8 * 2 ^ 8 + c % 8 * 2 ^ 16 + bank * 2 ^ 20 + row * 2 ^ 24)

/-- INGOT_ROW_REPAIR. -/
def execIngotRowRepair (st : ShopId) (c : Fin 8) (bank : BitVec 4) (row : BitVec 24) (s : State) :
    Host.Outcome State Fault Refusal :=
  act s (clocked (ingotRowRepair (Channel.ingot st c).num bank.toNat row.toNat))

/-! ## Relief (R421-R423) -/

/-- A relief of group `g` is refused. A channel that the group does not have is refused too. DEDUCED, log 91. -/
def State.reliefRefused (s : State) (g ch : Nat) : Bool :=
  s.fld .yrdReliefCtl 0 30 30 == 1 || s.fld .yrdGrpCfg g 28 28 == 0 || !s.spreadGroups.contains g
    || s.fld .yrdGrpStat g 25 25 == 1 || decide (s.grpChannels g ≤ ch)

/-- A write of 1 to YRD_RELIEF_CTL.GO. -/
def State.reliefGo (s : State) (g ch : Nat) (rate : Nat) : State :=
  if s.reliefRefused g ch then s.setFld .yrdReliefCtl 0 29 29 1
  else
    let s := ((s.setFld .yrdReliefCtl 0 18 16 g).setFld .yrdReliefCtl 0 12 8 ch).setFld .yrdReliefCtl 0 7 0 rate
    let s := (s.setFld .yrdReliefCtl 0 30 30 1).setReg ⟨.yrdReliefStat, 0, 0⟩ 0
    let s := (s.setFld .yrdGrpStat g 25 25 1).setFld .yrdGrpStat g 24 19 ch
    (s.updServ fun x => { x with relief := some { g, ch } }).memRec (128 + 32 * g + ch) 6 (Config.reliefData g ch)
      (Config.reserveData (s.grpReserve g) (s.grpChannels g))

/-- RELIEF_GO. -/
def execReliefGo (g : Fin 8) (c : Fin 32) (rate : Byte) (s : State) : Host.Outcome State Fault Refusal :=
  act s (clocked fun s => s.reliefGo g.val c.val rate.toNat)

/-- Lines of a channel's spread area. -/
def State.spreadLines (s : State) (g : Nat) : Nat := s.grpSpread g / s.grpChannels g / 128

/-- The channel leaves service; its spread lines are served from the reserve, and the current record names it. -/
def State.reliefDone (s : State) (x : Relief) : State :=
  let s := (s.updServ fun y => { y with relief := none }).setFld .yrdReliefCtl 0 30 30 0
  let s := s.setFld .yrdGrpFail x.g x.ch x.ch 1
  ((s.memRec (128 + 32 * x.g + x.ch) 7 (BitVec.ofNat 64 x.wm) (Config.reliefCycles s.draws)).drawn).addEntry 2
    (x.g * 2 ^ 8 + x.ch * 2 ^ 11)

/-- RELIEF_LINE_COPY: the next line is copied, poison and all, and WM advances. A line keeps its DPA, so the copy moves no byte of
the model's memory. -/
def reliefLineCopy (s : State) : State :=
  match s.mem.serv.relief with
  | none => s
  | some x =>
    let x := { x with wm := min (x.wm + 1) (s.spreadLines x.g) }
    let s := (s.updServ fun y => { y with relief := some x }).setReg ⟨.yrdReliefStat, 0, 0⟩ (BitVec.ofNat 32 x.wm)
    if s.spreadLines x.g ≤ x.wm then s.reliefDone x else s

/-- RELIEF_LINE_COPY. -/
def execReliefLineCopy (s : State) : Host.Outcome State Fault Refusal := act s (clocked reliefLineCopy)

/-! ## Margins (R424) -/

/-- MARGIN_POINT: a write of `v` to YRD_MARGIN_CTL with GO = 1; it is posted (16 R475). -/
def execMarginPoint (v : W32) (s : State) : Host.Outcome State Fault Refusal :=
  act s (clocked fun s =>
    s.post 14 (Reg.off ⟨.yrdMarginCtl, 0, 0⟩) ((v &&& maskOf (· == .rwp) RegKind.yrdMarginCtl.fields) ||| 0x80000000#32))

/-- The channel of a margin point. -/
def State.marginChan (s : State) : Nat := 128 + 32 * s.fld .yrdMarginCtl 0 29 27 + s.fld .yrdMarginCtl 0 26 22

/-- MARGIN_RESULT: the slice has counted `errs` bit errors. A channel runs at most one slice in a refresh interval (R419). -/
def execMarginResult (errs : W32) (s : State) : Host.Outcome State Fault Refusal :=
  act s (clocked fun s =>
    if s.mem.serv.margin && !s.mem.serv.sliced.contains s.marginChan then
      ((s.updServ fun x => { x with margin := false, sliced := s.marginChan :: x.sliced }).setReg ⟨.yrdMarginRes, 0, 0⟩ errs).setBusy 14 0
    else s)

/-! ## Self-refresh (R414) -/

/-- A SELF_REFRESH record of stack `k`: 1 on entry, 0 on exit. -/
def State.selfRec (s : State) (k : ShopId) (entry : W64) : State :=
  s.memRec (8 * k.val) 10 entry (BitVec.ofNat 64 k.val)

/-- SELF_REFRESH_ENTRY: at quench level 4 of its shop, once its queued requests have been served. -/
def execSelfRefreshEntry (k : ShopId) (s : State) : Host.Outcome State Fault Refusal :=
  act s (clocked fun s =>
    if s.stackUp k.val && s.fld .shlShopStat k.val 28 26 == 4 && !s.mem.serv.selfRef.contains k then
      ((s.updServ fun x => { x with selfRef := k :: x.selfRef }).setFld .shlShopStat k.val 16 16 1).selfRec k 1
    else s)

/-- A request in a stack's queue is served. -/
def State.serveHeld (s : State) (h : Held) : State :=
  match h.what with
  | .out o => s.emit o
  | .peer p u d => s.sendTo p 3 (.req u) d
  | .reply r => { s with xlat := { s.xlat with replies := s.xlat.replies ++ [r] } }
  | .write => s

/-- The stacks that satisfy `p` serve their queues in order, and what waited for them goes on. -/
def State.serveStacks (s : State) (p : Nat → Bool) : State :=
  let mine (h : Held) : Bool := p (h.chan / 8)
  ((s.held.filter mine).foldl State.serveHeld { s with held := s.held.filter fun h => !mine h }).allGo

/-- A stack leaves self-refresh when its shop's level falls below 4, and serves its queue. -/
def State.selfExit (s : State) (k : ShopId) : State :=
  if s.mem.serv.selfRef.contains k then
    let s := ((s.updServ fun x => { x with selfRef := x.selfRef.filter (· != k) }).setFld .shlShopStat k.val 16 16 0).selfRec k 0
    s.serveStacks (· == k.val)
  else s

/-! ## Bring-up (R400, R411, R417; 17 R490) -/

/-- The initial fill of the channels that satisfy `p`: every line zero, under the guarded class. -/
def State.fill (s : State) (p : Nat → Bool) : State :=
  let here (a : Nat) : Bool := match s.route a with | some r => p r.chan | none => false
  { s with mem := { s.mem with
      dram := s.mem.dram.filter fun e => !here e.1
      watched := s.mem.watched.filter fun e => !here (64 * e.1)
      lineErr := s.mem.lineErr.filter fun e => !here (64 * e.1) } }

/-- Field [hi:lo] of a repair entry (17 table 17.4). -/
def entryBits (e : BitVec 128) (hi lo : Nat) : Nat := e.toNat / 2 ^ lo % 2 ^ (hi + 1 - lo)

/-- The part record's entries that may be applied: none while the record awaits its verification (17 R490). -/
def State.applicable (s : State) : List (BitVec 128) := if s.sec.unverified.isSome then [] else s.sec.entries

/-- Step 5 of start-up ends when every stack serves: Sheler waits for the firmware (17 table 17.2). -/
def State.ingotReady (s : State) : State :=
  if s.fld .ingStatus 0 15 0 = 0xFFFF ∧ s.fld .secState 0 31 28 = 4 ∧ (Sp.find s.sec.current 2).isNone then s.setFld .secState 0 31 28 3
  else s

/-- A stack is brought up: record repairs, fill, service. It waits for the record's verification (17 R490). -/
def State.stackBringup (s : State) (k : ShopId) : State :=
  if s.stackUp k.val || s.sec.unverified.isSome then s
  else
    let s := (s.applicable.filter fun e => entryBits e 7 0 == 1 && entryBits e 15 8 == k.val).foldl
      (fun s e => s.remapRow (8 * k.val + entryBits e 18 16) (entryBits e 23 20) (entryBits e 47 24)) s
    ((s.setFld .ingStatus 0 k.val k.val 1).fill fun c => decide (c < 128) && c / 8 == k.val).ingotReady

/-- The configuration of group `g` is one that the yard can bring up: a listed density and speed, and a length that is not
negative (R409, YRD_GRPg_CFG). -/
def State.grpValid (s : State) (g : Nat) : Bool :=
  (densOf (s.fld .yrdGrpCfg g 30 30) (s.fld .yrdGrpCfg g 27 26)).isSome && decide (s.fld .yrdGrpCfg g 25 23 < 5)
    && decide (s.grpSpread g + s.grpChannels g * s.grpReserve g ≤ s.grpData g)

/-- The channel of group `g` that a verified record relieves. -/
def State.recordRelief (s : State) (g : Nat) : Option Nat :=
  (s.applicable.find? fun e => entryBits e 7 0 == 2 && entryBits e 10 8 == g).map fun e => entryBits e 15 11

/-- Group `g` cannot be brought up as it is configured (YRD_GRPg_CFG; 17 R490). DEDUCED, log 93. -/
def State.grpStaysOff (s : State) (g : Nat) : Bool :=
  !s.grpValid g || ((s.recordRelief g).isSome && s.fld .yrdGrpCfg g 28 28 == 0)

/-- Step 7a of start-up is over: every group that is enabled and can be brought up is up (17 table 17.2). -/
def State.yardDone (s : State) : Bool :=
  (List.range 8).all fun g => s.groupUp g || s.fld .yrdGrpCfg g 31 31 == 0 || s.grpStaysOff g

/-- The temper sets of a channel after training: trained bands hold new settings, others a copy of the highest trained. -/
def trainSets (bands : BitVec 4) (c : Nat) (x : Services) : Services :=
  let id (b : Nat) : Nat := x.trainings + b + 1
  let top := if bands.getLsbD 3 then 3 else if bands.getLsbD 2 then 2 else if bands.getLsbD 1 then 1 else 0
  { x with
    trainings := x.trainings + 4
    sets := (List.range 4).foldl (fun m b => Sp.put m (4 * c + b) (if bands.getLsbD b then id b else id top)) x.sets }

/-- A group is brought up, once step 6 of start-up is over (17 R485) and the record is verified (17 R490): `failed` channels failed training, the bands of `trained` were trained, and `band` is current. -/
def State.groupBringup (s : State) (g : Nat) (failed : List (Fin 32)) (trained : BitVec 4) (band : Nat) : State :=
  if s.groupUp g || s.fld .yrdGrpCfg g 31 31 == 0 || s.sec.unverified.isSome || !s.firmwareIn then s
  else if s.grpStaysOff g then s.setFld .yrdStatus 0 31 31 1
  else
    let trained := trained ||| BitVec.ofNat 4 (2 ^ band)
    let s := ((s.setFld .yrdStatus 0 g g 1).setFld .yrdGrpStat g 31 30 band).setFld .yrdGrpStat g 29 26 (15 - trained.toNat)
    let s := failed.foldl (fun s c => s.setFld .yrdGrpFail g c.val c.val 1) s
    let s := s.updServ fun x => (s.grpChans g).foldl (fun x c => trainSets trained c x) x
    let s := (s.grpChans g).foldl (fun s c => temperSetLoad c s) s
    let s :=
      match s.recordRelief g with
      | none => s
      | some c => ((s.setFld .yrdGrpStat g 25 25 1).setFld .yrdGrpStat g 24 19 c).setFld .yrdGrpFail g c c 1
    s.fill fun c => decide (128 ≤ c) && (c - 128) / 32 == g

/-- GROUP_BRINGUP. -/
def execGroupBringup (u : MemUnit) (failed : List (Fin 32)) (trained : BitVec 4) (band : BitVec 2) (s : State) :
    Host.Outcome State Fault Refusal :=
  act s (clocked fun s =>
    match u with
    | .stack k => s.stackBringup k
    | .group g => s.groupBringup g.val failed trained band.toNat)

end Sys2Proof.Machine
end

