-- ==== Sys2Proof/Machine/Enable.lean ====
section
/-! DEFINITION. Enabling the blocks that drain, and the ends of their drains (16 R479-R481, table 16.4; 10 R341, R529; 12 R386;
14 R433; 17 R505-R507). -/

namespace Sys2Proof.Machine

/-! ## Benches -/

/-- A write of 1 to FMN_BENCHb_CTL.EN. A seized bench comes on when the foreman's reset passes, a bench under FMN_BRESET when that
reset passes, and an excluded bench stays off (17 R504-R507). -/
def State.benchEnable (s : State) (b : BenchId) : State :=
  if s.fld .fmnBenchCtl b.val 30 30 = 1 then s.setBenchCtl b 1 1 1 0
  else if s.fld .fmnBenchCtl b.val 28 28 = 1 || (s.bench b).excluded then s
  else if s.fld .benXstat b.val 31 31 = 1 then { s with seizing := b :: s.seizing.filter (· != b) }
  else if s.resetting == some b then s.setBenchCtl b 1 0 0 0
  else s.setBenchCtl b 1 0 0 1

/-- The drain of a bench completes when the bench is free or seized (17 R505). -/
def State.benchDrained (s : State) (b : BenchId) : State :=
  if s.fld .fmnBenchCtl b.val 30 30 = 0 || ((s.bench b).slot.isSome && s.fld .benXstat b.val 31 31 == 0) then s
  else
    let on := s.fld .fmnBenchCtl b.val 29 29
    s.setBenchCtl b on 0 0 on

/-! ## Carters -/

/-- A write of 1 to CRT_RING_CFG.EN (10 R529): the ring is served again, and its control block is read. -/
def State.localEnable (s : State) (c : CarterId) : State :=
  if s.carterFld c 2 31 31 = 1 then s
  else (s.setCarterFld c 2 31 31 1).updCarter c fun x => { x with reread := true }

/-- LBUSY clears when no request of the local ring is in flight. -/
def State.localDrained (s : State) (c : CarterId) : State := if s.localBusy c then s else s.setCarterFld c 3 24 24 0

/-- Stores DRAINING, PEND_EN and ON of CRT_STATUS, and CRT_CTL.EN. -/
def State.setCarterOn (s : State) (c : CarterId) (en drain pend on : Nat) : State :=
  (s.setCarterFld c 3 31 29 (4 * drain + 2 * pend + on)).setCarterFld c 4 31 31 en

/-- A write of 1 to CRT_CTL.EN. -/
def State.carterEnable (s : State) (c : CarterId) : State :=
  if s.carterFld c 3 31 31 = 1 then s.setCarterOn c 1 1 1 0
  else if s.carterFld c 3 29 29 = 1 then s
  else s.setCarterOn c 1 0 0 1

/-- A carter's drain completes when its runs have ended, its ladle rows are acknowledged and no request is in flight (10 R341). -/
def State.carterDrained (s : State) (c : CarterId) : State :=
  let x := s.carter c
  let ladle : Bool := match c with
    | .bench k => k.val % 2 == 1 && !s.settled (.ladle ⟨k.val / 2, by omega⟩)
    | _ => false
  if s.carterFld c 3 31 31 = 0 || !x.loc.isEmpty || !x.fore.isEmpty || ladle || !s.carterQuiet c then s
  else
    let on := s.carterFld c 3 30 30
    s.setCarterOn c on 0 0 on

/-! ## Hoppers -/

/-- Stores DRAINING, PEND_EN and ON of HOP_STATUS, and HOP_CFG.EN. -/
def State.setHopperOn (s : State) (h : HopperId) (en drain pend on : Nat) : State :=
  (s.setFld .hopStatus h.val 31 29 (4 * drain + 2 * pend + on)).setFld .hopCfg h.val 31 31 en

/-- A write of 1 to HOP_CFG.EN. -/
def State.hopperEnable (s : State) (h : HopperId) : State :=
  if s.fld .hopStatus h.val 31 31 = 1 then s.setHopperOn h 1 1 1 0
  else if s.fld .hopStatus h.val 29 29 = 1 then s
  else s.setHopperOn h 1 0 0 1

/-- The run works on hopper `h`: it puts to it or takes from it, has begun, and has not ended. -/
def Run.worksOn (r : Run) (h : HopperId) : Bool :=
  dType r.words != 4 && ((dDk r.words == 5 && wordBits r.words 3 29 20 == h.val)
      || (dType r.words != 3 && dSk r.words == 5 && wordBits r.words 3 39 30 == h.val))
    && (match r.st with | .failed .. => false | _ => true)

/-- Operations on hopper `h` are in progress, or a closed packet has its notice to ring (R337). -/
def State.hopperBusy (s : State) (h : HopperId) : Bool :=
  (s.carters.any fun x => x.2.loc.any (·.worksOn h) || x.2.fore.any (·.worksOn h)) || ((s.hopper h).claims.any fun k => !k.read)
    || !(s.hopper h).notices.isEmpty

/-- A hopper's drain completes when no operation is in progress: its contents are discarded (10 R341). DEDUCED, log 112. -/
def State.hopperDrained (s : State) (h : HopperId) : State :=
  if s.fld .hopStatus h.val 31 31 = 0 || s.hopperBusy h then s
  else
    let on := s.fld .hopStatus h.val 30 30
    (s.setHopperOn h on 0 0 on).updHopper h fun _ => {}

/-! ## Command rings and functions -/

/-- Function `f` is on: it is the PF, or PEX_FNf_CTL.ON is 1 (16 R479). -/
def State.fnOn (s : State) (f : Nat) : Bool := f == 0 || s.fld .pexFnCtl f 28 28 == 1

/-- A write of 1 to CTH_RINGn_CFG.EN. A ring of a function that is off cannot be enabled; while the ring drains, EN alone shows the
pending enable (R480). -/
def State.ringEnable (s : State) (r : RingId) : State :=
  if !s.fnOn (s.ringFn r) then s
  else if s.fld .cthRingCfg r.val 30 30 = 1 then s.setFld .cthRingCfg r.val 31 31 1
  else (s.setFld .cthRingCfg r.val 31 31 1).updRing r fun g => { g with mute := false }

/-- A ring's drain completes when its slot is free of work: the halt ends, and a pending enable takes effect (12 R386, R530). -/
def State.ringDrained (s : State) (r : RingId) : State :=
  let g := s.ring r
  let idle := match g.slot with | some n => (s.kernel n).phase == .none | none => true
  if s.fld .cthRingCfg r.val 30 30 = 0 || !g.entries.isEmpty || !idle then s
  else
    let s := (s.setFld .cthRingCfg r.val 30 30 0).endHalt r
    if s.fld .cthRingCfg r.val 31 31 = 1 && s.fnOn (s.ringFn r) then s.updRing r fun g => { g with mute := false }
    else s.setFld .cthRingCfg r.val 31 31 0

/-- Stores EN, DRAINING, PEND_EN and ON of PEX_FNf_CTL. -/
def State.setFnCtl (s : State) (f : FnId) (en drain pend on : Nat) : State :=
  s.setFld .pexFnCtl f.val 31 28 (8 * en + 4 * drain + 2 * pend + on)

/-- A write of 1 to PEX_FNf_CTL.EN. -/
def State.fnEnable (s : State) (f : FnId) : State :=
  if f.val = 0 then s
  else if s.fld .pexFnCtl f.val 30 30 = 1 then s.setFnCtl f 1 1 1 0
  else if s.fld .pexFnCtl f.val 28 28 = 1 then s
  else s.setFnCtl f 1 0 0 1

/-- A function's drain completes when none of its slots is bound (R479). -/
def State.fnDrained (s : State) (f : FnId) : State :=
  if s.fld .pexFnCtl f.val 30 30 = 0 || !(s.fnSlots f).isEmpty then s
  else
    let on := s.fld .pexFnCtl f.val 29 29
    s.setFnCtl f on 0 0 on

/-! ## Dray ports and alloy quarters -/

/-- A write of 1 to DRY_PORTp_CFG.EN: the port trains, once step 7c of bring-up has come (17 table 17.2). -/
def State.portEnable (s : State) (p : PortId) : State :=
  let s' := s.setFld .dryPortCfg p.val 31 31 1
  if s.fld .dryPortStat p.val 31 31 = 1 then s'.setFld .dryPortStat p.val 30 30 1
  else if s.fld .dryPortCfg p.val 31 31 = 1 then s
  else if s.rootOn && s.firmwareIn then s'.setPortState p.val 1
  else s'

/-- A port's drain completes when its queue is empty and every flit is acknowledged: it goes DOWN (14 R433). -/
def State.portDrained (s : State) (p : PortId) : State :=
  let x := s.port p.val
  if s.fld .dryPortStat p.val 31 31 = 0 || !x.queue.isEmpty || !x.replay.isEmpty then s
  else
    let on := s.fld .dryPortStat p.val 30 30
    let s := (if s.portState p.val = 0 then s else s.portDown p.val).setFld .dryPortStat p.val 31 30 0
    if on = 1 then (s.setFld .dryPortCfg p.val 31 31 1).setPortState p.val 1 else (s.setFld .dryPortCfg p.val 31 31 0).setPortState p.val 0

/-- A write of 1 to ALY_Qh_RING_CFG.EN: the quarter serves its ring, and reads its control block. -/
def State.quarterEnable (s : State) (q : HallId) : State :=
  if s.fld .alyQStatus q.val 31 31 = 1 then (s.setFld .alyQStatus q.val 30 30 1).setFld .alyQRingCfg q.val 31 31 1
  else if s.fld .alyQStatus q.val 29 29 = 1 then s
  else (s.setQuarterEn q 1).updQuarter q fun x => { x with reread := true }

/-- A quarter's drain completes when no request of its is in flight (10 R341, as for a link carter). -/
def State.quarterDrained (s : State) (q : HallId) : State :=
  if s.fld .alyQStatus q.val 31 31 = 0 || (s.quarter q).coll.isSome || !s.collQuiet q then s
  else
    let on := s.fld .alyQStatus q.val 30 30
    ((s.setFld .alyQStatus q.val 31 30 0).setQuarterEn q on).updQuarter q fun x => { x with reread := true }

/-! ## The commands -/

/-- ENABLE_WRITE: an enable is written. -/
def State.enable (s : State) : DrainUnit → State
  | .bench b => s.benchEnable b
  | .carter c => s.carterEnable c
  | .hopper h => s.hopperEnable h
  | .ring r => s.ringEnable r
  | .port p => s.portEnable p
  | .quarter q => s.quarterEnable q
  | .fn f => s.fnEnable f
  | .localRing c => s.localEnable c

/-- A block's drain completes, when nothing holds it back. -/
def State.drained (s : State) : DrainUnit → State
  | .bench b => s.benchDrained b
  | .carter c => s.carterDrained c
  | .hopper h => s.hopperDrained h
  | .ring r => s.ringDrained r
  | .port p => s.portDrained p
  | .quarter q => s.quarterDrained q
  | .fn f => s.fnDrained f
  | .localRing c => s.localDrained c

/-- ENABLE_WRITE. -/
def execEnableWrite (u : DrainUnit) (s : State) : Host.Outcome State Fault Refusal := act s (clocked fun s => s.enable u)

/-- BLOCK_DRAIN_COMPLETE. -/
def execBlockDrainComplete (u : DrainUnit) (s : State) : Host.Outcome State Fault Refusal := act s (clocked fun s => s.drained u)

end Sys2Proof.Machine
end

