-- ==== Sys2Proof/Machine/Sheler.lean ====
section
/-! DEFINITION. Sheler, clocks and power (15 R447-R465): sensors, quench, the die floor, the trip, the power limit, droops, power
states, the rule table and dross. -/

namespace Sys2Proof.Machine

/-- Changes Sheler. -/
def State.updSheler (s : State) (f : Sheler → Sheler) : State := { s with sheler := f s.sheler }

/-! ## Sensors (R450, R451) -/

/-- T_f after sample `t`: computed exactly and truncated toward zero. -/
def filtered (k : Nat) (old t : Int) : Int := (old * 2 ^ k + (t - old)).tdiv (2 ^ k)

/-- A sample of a temperature sensor. DESIGN CHOICE, log 100. -/
def State.sampleOne (s : State) (x : Nat × Int) : State :=
  if 144 ≤ x.1 then s
  else
    let k := s.fld .shlFilt 0 26 24
    let f := match Sp.find s.sheler.filt x.1 with | some old => filtered k old x.2 | none => x.2
    s.updSheler fun y => { y with raw := Sp.put y.raw x.1 x.2, filt := Sp.put y.filt x.1 f }

/-- The largest of values, if there are any. -/
def largest : List Int → Option Int
  | [] => none
  | v :: r => match largest r with | some w => some (max v w) | none => some v

/-- The largest T_f of the `n` sensors from number `k`. -/
def State.hottest (s : State) (k n : Nat) : Option Int := largest ((List.range n).filterMap fun i => Sp.find s.sheler.filt (k + i))

/-- The lowest of the `n` sensors from number `k` that reads `t`. -/
def State.sensorOf (s : State) (k n : Nat) (t : Int) : Nat :=
  ((List.range n).map (k + ·)).find? (fun i => Sp.find s.sheler.filt i == some t) |>.getD k

/-- The value of a temperature in a record's DATA word. -/
def tempData (t : Int) : Nat := (BitVec.ofInt 64 t).toNat

/-! ## Quench (R452; table 15.3) -/

/-- QLVL of shop `k`. -/
def State.quench (s : State) (k : Nat) : Nat := s.fld .shlShopStat k 28 26

/-- The highest level whose entry condition holds; `rising`: level 2 has held for HOT3 and T_f exceeds its value at entry. -/
def quenchEntry (t : Int) (rising : Bool) : Nat :=
  if 400 ≤ t then 4 else if 392 ≤ t ∨ rising then 3 else if 368 < t then 2 else if 340 < t then 1 else 0

/-- The condition to leave a level. -/
def quenchLeaves (lvl : Nat) (t : Int) : Bool :=
  match lvl with
  | 1 => t ≤ 332
  | 2 => t ≤ 360
  | 3 => t ≤ 376
  | 4 => t ≤ 380
  | _ => false

/-- A register value in milliseconds of which 0 acts as 1, in samples. -/
def samplesOf (ms : Nat) : Nat := 100 * max 1 ms

/-- A shop whose stop is pending or made runs no dross (R459). -/
def State.dropDross (s : State) (k : ShopId) : State :=
  if s.divWanted k.val = 4 then
    (List.finRange 256).foldl (fun s b =>
      if shopOf b = k ∧ (s.bench b).forge.dross then s.updForge b fun x => { x with dross := false, duty := 0 } else s) s
  else s

/-- The level of shop `k` becomes `lvl` at temperature `t`: a QUENCH_CHANGE record. Leaving level 4 ends the episode and the
stack's self-refresh (R453, R454; 13 R414). -/
def State.setQuench (s : State) (k : ShopId) (lvl : Nat) (t : Int) : State :=
  let was := s.quench k.val
  let s := (s.setFld .shlShopStat k.val 28 26 lvl).updSheler fun y =>
    { y with
      leave := Sp.erase y.leave k.val
      hot2 := if lvl = 2 then Sp.put y.hot2 k.val t else y.hot2
      hold2 := Sp.erase y.hold2 k.val }
  let s :=
    if was = 4 then
      ((s.setFld .shlShopStat k.val 15 0 0).updSheler fun y =>
        { y with at4 := Sp.erase y.at4 k.val, dwelt := y.dwelt.filter (· != k) }).selfExit k
    else s
  (s.dropDross k).shelRec 1 k.val lvl (tempData t)

/-- One sample period of shop `k`'s level. -/
def State.quenchSample (s : State) (k : ShopId) : State :=
  match s.hottest (4 * k.val) 4 with
  | none => s
  | some t =>
    let lvl := s.quench k.val
    let hold := Sp.get (fun _ => 0) s.sheler.hold2 k.val + 1
    let rising := lvl == 2 && decide (samplesOf (s.fld .shlFilt 0 23 16) ≤ hold) && decide (Sp.get (fun _ => t) s.sheler.hot2 k.val < t)
    let n4 := Sp.get (fun _ => 0) s.sheler.at4 k.val + 1
    let s := s.updSheler fun y =>
      { y with
        hold2 := if lvl = 2 then Sp.put y.hold2 k.val hold else y.hold2
        at4 := if lvl = 4 then Sp.put y.at4 k.val n4 else y.at4
        leave := if quenchLeaves lvl t then Sp.put y.leave k.val (Sp.get (fun _ => 0) y.leave k.val + 1) else Sp.erase y.leave k.val }
    let s := if lvl = 4 then s.setFld .shlShopStat k.val 15 0 (min (n4 / 100) 0xFFFF) else s
    if lvl < quenchEntry t rising then s.setQuench k (quenchEntry t rising) t else s

/-- QUENCH_FALL: the leaving condition has held for 10 ms, 1,000 samples, without a break. -/
def quenchFall (k : ShopId) (s : State) : State :=
  match s.hottest (4 * k.val) 4 with
  | none => s
  | some t =>
    if 0 < s.quench k.val ∧ 1000 ≤ Sp.get (fun _ => 0) s.sheler.leave k.val then s.setQuench k (s.quench k.val - 1) t else s

/-! ## The die floor (R455) -/

/-- Threshold of die-floor condition `i`, whether it must be exceeded, and its floor: the shop's 1, 2 and 4, and the 2 of the hall's
periphery. -/
def dieRule (i : Nat) : Int × Bool × Nat :=
  match i with
  | 0 => (400, true, 1)
  | 1 => (420, true, 2)
  | 2 => (440, false, 4)
  | _ => (440, false, 2)

/-- One sample period of condition `i` of shop `k` at temperature `t`: entered, or left after 1,000 samples 3 degrees below.
DEDUCED, log 101. -/
def State.dieSample (s : State) (k i : Nat) (t : Int) : State :=
  let r := dieRule i
  let hot : Bool := if r.2.1 then decide (r.1 < t) else decide (r.1 ≤ t)
  let key := 4 * k + i
  match Sp.find s.sheler.die key with
  | none => if hot then s.updSheler fun y => { y with die := Sp.put y.die key 0 } else s
  | some n =>
    if t ≤ r.1 - 12 then
      s.updSheler fun y => { y with die := if 1000 ≤ n + 1 then Sp.erase y.die key else Sp.put y.die key (n + 1) }
    else s.updSheler fun y => { y with die := Sp.put y.die key 0 }

/-- The largest floor in force for shop `k` of the first `n` conditions: its own are the first three. -/
def State.floorOf (s : State) (k n : Nat) : Nat :=
  ((List.range n).map fun i => if (Sp.find s.sheler.die (4 * k + i)).isSome then (dieRule i).2.2 else 0).foldl max 0
def State.dieOwn (s : State) (k : Nat) : Nat := s.floorOf k 3

/-- The die floor in force for shop `k`. -/
def State.dieFloor (s : State) (k : Nat) : Nat := s.floorOf k 4

/-- One sample period of shop `k`'s die floor; a change writes DIE_FLOOR, with the hottest sensor of those that set it. -/
def State.floorSample (s : State) (k : ShopId) : State :=
  let die := s.hottest (64 + 4 * k.val) 4
  let hall := s.hottest (128 + 4 * (k.val / 4)) 4
  let s : State := match die with | some t => ((s.dieSample k.val 0 t).dieSample k.val 1 t).dieSample k.val 2 t | none => s
  let s : State := match hall with | some t => s.dieSample k.val 3 t | none => s
  let f : Nat := s.dieFloor k.val
  if f = s.fld .shlShopStat k.val 25 23 then s
  else
    let own := s.dieOwn k.val
    let sensor :=
      match die, hall with
      | some t, none => s.sensorOf (64 + 4 * k.val) 4 t
      | some t, some h => if own < f then s.sensorOf (128 + 4 * (k.val / 4)) 4 h else s.sensorOf (64 + 4 * k.val) 4 t
      | none, h => s.sensorOf (128 + 4 * (k.val / 4)) 4 (h.getD 0)
    ((s.setFld .shlShopStat k.val 25 23 f).dropDross k).shelRec 5 k.val f sensor

/-! ## The power limit (R457) -/

/-- The caps that acting rules set (R463, ACT 2). -/
def State.ruleCaps (s : State) : List Nat :=
  (s.sheler.acting.filter fun n => bits (s.reg ⟨.shlRuleHi, n, 0⟩) 15 12 == 2).map fun n => bits (s.reg ⟨.shlRuleHi, n, 0⟩) 11 0

/-- The effective PCAP. -/
def State.pcap (s : State) : Nat := s.ruleCaps.foldl min (min 1900 (s.fld .pwrLimit 0 11 0))

/-- The mean power that Sheler last took. -/
def State.meanPower (s : State) : Nat := (Sp.get (fun _ => (0 : Int)) s.sheler.filt 144).toNat

/-- The device-wide power step becomes `n`: a POWER_STEP record. DEDUCED, log 102. -/
def State.setStep (s : State) (n : Nat) : State :=
  let s := (List.range 16).foldl (fun s k => s.setFld .shlShopStat k 22 20 n) (s.setFld .pwrStat 0 2 0 n)
  s.shelRec 2 0xFFFF n s.meanPower

/-- The device-wide power step. -/
def State.pstep (s : State) : Nat := s.fld .pwrStat 0 2 0

/-- The step rises by one, to 3 at most. -/
def State.stepUp (s : State) : State := if s.pstep < 3 then s.setStep (s.pstep + 1) else s

/-- A power estimate of 10 microseconds: above 2,300 W the step rises at once, and again after every tenth sample. -/
def State.powerSample (s : State) (p : Nat) : State :=
  let s := s.updSheler fun y =>
    { y with
      raw := Sp.put y.raw 144 p
      filt := if (Sp.find y.filt 144).isSome then y.filt else Sp.put y.filt 144 p }
  if 2300 < p then
    let n := s.sheler.excess
    let s := s.updSheler fun y => { y with excess := n + 1 }
    if n % 10 = 0 then s.stepUp else s
  else s.updSheler fun y => { y with excess := 0 }

/-- POWER_CHECK: `mean` is the mean of the last 100 estimates. -/
def powerCheck (mean : Nat) (s : State) : State :=
  let cap := s.pcap
  let above := if cap < mean then s.sheler.above + 1 else 0
  let under := if 10 * mean < 9 * cap then s.sheler.under + 1 else 0
  let s := s.updSheler fun y => { y with filt := Sp.put y.filt 144 mean, above, under }
  if above = 2 then (s.updSheler fun y => { y with above := 0 }).stepUp
  else if under = 20 then
    let s := s.updSheler fun y => { y with under := 0 }
    if 0 < s.pstep then s.setStep (s.pstep - 1) else s
  else s

/-! ## Droop thresholds (R461) -/

/-- The die temperature band of a shop: below 60 degrees, to 80, to 95, and above. DESIGN CHOICE, log 157. -/
def droopBand (t : Int) : Nat := if t < 240 then 0 else if t ≤ 320 then 1 else if t ≤ 380 then 2 else 3

/-- The activity level of a shop, from its percentage: below 25, up to 50, up to 75, and above. -/
def activityLevel (a : Nat) : Nat := if a < 25 then 0 else if a ≤ 50 then 1 else if a ≤ 75 then 2 else 3

/-- Sheler selects the margin register of every shop, n = 4b + a. The activity is a free value. -/
def State.selectMargins (s : State) : State :=
  let n (k : Nat) : Nat := 4 * droopBand ((s.hottest (64 + 4 * k) 4).getD 0) + activityLevel (Config.shopActivity s.draws k)
  (s.updSheler fun y => { y with margin := (List.range 16).foldl (fun m k => Sp.put m k (n k)) y.margin }).drawn

/-- The threshold of a shop's droop detectors: THR of its selected register. -/
def State.droopThr (s : State) (k : Nat) : Nat := s.fld .shlMargin (Sp.get (fun _ => 0) s.sheler.margin k) 7 0

/-! ## Samples and the trip (R451, R456) -/

/-- Sheler decides: PERST_N is released and no trip stands. -/
def watching (f : State → State) (s : State) : State := if s.sec.perst || s.sheler.thermtrip then s else f s

/-- SENSOR_SAMPLE. -/
def sensorSample (samples : List (Nat × Int)) (power : Nat) (s : State) : State :=
  let s := samples.foldl State.sampleOne s
  let s := (List.finRange 16).foldl State.quenchSample s
  let s := (List.finRange 16).foldl State.floorSample s
  s.selectMargins.powerSample power

/-- SENSOR_SAMPLE. -/
def execSensorSample (samples : List (Nat × Int)) (power : Nat) (s : State) : Host.Outcome State Fault Refusal :=
  act s (watching (sensorSample samples power))

/-- QUENCH_FALL. -/
def execQuenchFall (k : ShopId) (s : State) : Host.Outcome State Fault Refusal := act s (watching (quenchFall k))

/-- The device stops as for a thermal trip: the clocks stop, THERMTRIP_N is asserted, SHL_TRIP holds the sensor and the reading, and
the contents of the ingot and the yard are lost. DEDUCED, log 132. -/
def State.trip (s : State) (sensor : Byte) (temp : BitVec 12) : State :=
  let s := { s with rootOn := false }.setFld .clkStatus 0 31 31 0
  let s := s.setReg ⟨.shlTrip, 0, 0⟩ (BitVec.ofNat 32 (2 ^ 31 + sensor.toNat * 2 ^ 16 + temp.toNat))
  let s := s.updSheler fun y => { y with thermtrip := true, tripSeen := some (sensor, temp) }
  { s with mem := { s.mem with dram := [], watched := [], lineErr := [] } }

/-- THERMAL_TRIP: two samples in a row of a die sensor at 115 degrees or more. -/
def execThermalTrip (sensor : Byte) (t1 t2 : Int) (s : State) : Host.Outcome State Fault Refusal :=
  act s (watching fun s =>
    if decide (64 ≤ sensor.toNat) && decide (sensor.toNat < 144) && decide (460 ≤ t1) && decide (460 ≤ t2) then
      s.trip sensor (BitVec.ofInt 12 t2)
    else s)

/-- REFCLK_LOSS (18 R517). -/
def execRefclkLoss (s : State) : Host.Outcome State Fault Refusal := act s (watching fun s => s.trip 0xFF 0)

/-- DWELL_EXPIRED: once in an episode; a record, and the distress of 14 R445. -/
def dwellExpired (k : ShopId) (s : State) : State :=
  let ms := s.fld .shlShopStat k.val 15 0
  if s.quench k.val = 4 ∧ max 1 (s.fld .shlFilt 0 15 0) ≤ ms ∧ !s.sheler.dwelt.contains k then
    ((s.updSheler fun y => { y with dwelt := k :: y.dwelt }).shelRec 3 k.val ms 0).quenchDistress
  else s

/-- DWELL_EXPIRED. -/
def execDwellExpired (k : ShopId) (s : State) : Host.Outcome State Fault Refusal := act s (watching (dwellExpired k))

/-- POWER_CHECK. -/
def execPowerCheck (mean : Nat) (s : State) : Host.Outcome State Fault Refusal := act s (watching (powerCheck mean))

/-! ## Divisors (R448, R449, R453) -/

/-- LEVEL4_STOP: the largest request is a stop. Every engine stands at a boundary between commands, so the stop is the clock's. -/
def execLevel4Stop (k : ShopId) (s : State) : Host.Outcome State Fault Refusal :=
  act s (clocked fun s => if s.divWanted k.val = 4 then s.setFld .shlShopStat k.val 31 29 4 else s)

/-- DIVISOR_CHANGE: the shop's clock takes the divisor that it asks for; a stopped clock restarts, and stopped operations resume in
place. -/
def execDivisorChange (k : ShopId) (s : State) : Host.Outcome State Fault Refusal :=
  act s (clocked fun s => if s.divWanted k.val < 4 then (s.setFld .shlShopStat k.val 31 29 (s.divWanted k.val)).deliver else s)

/-- DROOP_STRETCH: timing, and a droop event in the shop's counts. -/
def execDroopStretch (k : ShopId) (s : State) : Host.Outcome State Fault Refusal :=
  act s (clocked fun s => s.updSheler fun y => { y with droops := Sp.put y.droops k.val (Sp.get (fun _ => 0) y.droops k.val + 1) })

/-! ## Dross (R459) -/

/-- The benches that run dross, in increasing number. -/
def State.drossBenches (s : State) : List BenchId := (List.finRange 256).filter fun b => (s.bench b).forge.dross

/-- Groups of eight. -/
def groupsOf8 (l : List BenchId) : List (List BenchId) := (List.range ((l.length + 7) / 8)).map fun i => (l.drop (8 * i)).take 8

/-- The group whose turn it is: the first that begins above the last bench of the group before; else the lowest. -/
def State.drossGroup (s : State) : List BenchId :=
  let gs := groupsOf8 s.drossBenches
  match gs.find? fun g => match g.head? with | some b => decide (s.sheler.drossTurn < b.val) | none => false with
  | some g => g
  | none => gs.headD []

/-- DROSS_STEP_DOWN: one group's duty falls by an eighth; at 0 its dross stops. -/
def drossStepDown (s : State) : State :=
  let g := s.drossGroup
  match g.getLast? with
  | none => s
  | some b =>
    let s := g.foldl (fun s b => s.updForge b fun x => { x with duty := x.duty - 1, dross := decide (1 < x.duty) }) s
    s.updSheler fun y => { y with drossTurn := b.val }

/-- DROSS_STEP_DOWN. -/
def execDrossStepDown (s : State) : Host.Outcome State Fault Refusal := act s (clocked drossStepDown)

/-! ## Power states (R462) -/

/-- PWR_STAT.STATE: 0 Awake, 1 Nap, 2 Doze. -/
def State.powerState (s : State) : Nat := s.fld .pwrStat 0 31 30

/-- No bench holds a kernel or dross, and no slot is bound. DEDUCED, log 105. -/
def State.deviceIdle (s : State) : Bool :=
  (s.benches.all fun b => b.2.slot.isNone && !b.2.forge.dross) && s.rings.all fun r => r.2.slot.isNone

/-- NAP_ENTRY. -/
def execNapEntry (s : State) : Host.Outcome State Fault Refusal :=
  act s (clocked fun s =>
    if s.ready && s.powerState == 0 && s.fld .pwrCtl 0 15 0 != 0 && s.deviceIdle then s.setFld .pwrStat 0 31 30 1 else s)

/-- A carter, a hopper or an invalidation is busy, or a request is in flight. -/
def State.moversBusy (s : State) : Bool :=
  (s.carters.any fun c => !c.2.loc.isEmpty || !c.2.fore.isEmpty || c.2.ringWait.isSome)
    || (s.hoppers.any fun h =>
      h.2.wr != h.2.rel || h.2.open_.isSome || !h.2.takers.isEmpty || !h.2.putters.isEmpty || !h.2.claims.isEmpty || !h.2.notices.isEmpty)
    || !s.underway.isEmpty
    || !s.xlat.inval.isEmpty

/-- A Doze request: from Nap, or refused with REF (R462). -/
def State.dozeRequest (s : State) : State :=
  if s.powerState ≠ 1 ∨ (List.range 12).any (fun p => s.portState p != 0) ∨ s.moversBusy then s.setFld .pwrStat 0 29 29 1
  else
    let up := (List.finRange 16).filter fun k => s.stackUp k.val
    let s := up.foldl (fun s k => s.setFld .shlShopStat k.val 16 16 1) (s.updServ fun x => { x with selfRef := up })
    { (s.setFld .pwrStat 0 31 30 2).setFld .clkStatus 0 31 31 0 with rootOn := false }

/-- DOZE_REQUEST: a write of 2 to PWR_CTL.REQ. -/
def execDozeRequest (s : State) : Host.Outcome State Fault Refusal := act s (watching fun s => if s.rootOn then s.dozeRequest else s)

/-- The root PLL locks. -/
def State.rootLock (s : State) : State :=
  { (s.setFld .clkStatus 0 31 31 1).satAdd .clkStatus 0 15 0 1 with rootOn := true }

/-- Doze ends: the root PLL locks, the memories leave self-refresh, and the current bands' temper sets are loaded. -/
def State.leaveDoze (s : State) : State :=
  if s.powerState = 2 ∧ s.sheler.thermtrip = false then
    let s := (s.rootLock).setFld .pwrStat 0 31 30 0
    let s := (List.finRange 16).foldl (fun s k => s.setFld .shlShopStat k.val 16 16 0) s
    let s := (s.updServ fun x => { x with selfRef := [] }).serveStacks fun _ => true
    ((List.range 8).flatMap s.grpChans).foldl (fun s c => temperSetLoad c s) s.deliver
  else s

/-- AWAKE_REQUEST: a write of 1 to PWR_CTL.REQ. -/
def execAwakeRequest (s : State) : Host.Outcome State Fault Refusal := act s (watching State.leaveDoze)

/-- DOZE_WAKE: a PCI Express request other than a configuration request. -/
def execDozeWake (s : State) : Host.Outcome State Fault Refusal := act s (watching State.leaveDoze)

/-! ## The rule table (R463) -/

/-- The registers of rule `n`. -/
def State.ruleLo (s : State) (n : Nat) : W32 := s.reg ⟨.shlRuleLo, n, 0⟩
def State.ruleHi (s : State) (n : Nat) : W32 := s.reg ⟨.shlRuleHi, n, 0⟩

/-- The values of a sensor class: ingot stacks, shop dies, peripheries, power, yard bands. -/
def State.classValue (s : State) (sens k : Nat) : Option Int :=
  match sens with
  | 0 => if k < 16 then s.hottest (4 * k) 4 else none
  | 1 => if k < 16 then s.hottest (64 + 4 * k) 4 else none
  | 2 => if k < 4 then s.hottest (128 + 4 * k) 4 else none
  | 3 => Sp.find s.sheler.filt 144
  | 4 => if k < 8 ∧ s.groupUp k then some (s.band k + 1 : Nat) else none
  | _ => none

/-- The value that rule `n` tests: of its scope, or the largest of its class for SCOPE 0xFF. DEDUCED, log 103. -/
def State.ruleValue (s : State) (n : Nat) : Option Int :=
  let sens := bits (s.ruleLo n) 30 28
  let scope := bits (s.ruleLo n) 23 16
  if sens = 3 then s.classValue 3 0
  else if scope = 0xFF then largest ((List.range 16).filterMap (s.classValue sens))
  else s.classValue sens scope

/-- THR: two's complement for a temperature. -/
def State.ruleThr (s : State) (n : Nat) : Int :=
  let t := bits (s.ruleLo n) 11 0
  if bits (s.ruleLo n) 30 28 < 3 then (BitVec.ofNat 12 t).toInt else t

/-- Rule `n` is enabled and its comparison holds. -/
def State.ruleHolds (s : State) (n : Nat) : Bool :=
  (s.ruleLo n).getLsbD 31 &&
    match s.ruleValue n with
    | some v => if bits (s.ruleLo n) 15 15 = 0 then decide (s.ruleThr n ≤ v) else decide (v < s.ruleThr n)
    | none => false

/-- The shops on which rule `n` acts. -/
def State.ruleShops (s : State) (n : Nat) : List Nat :=
  let sens := bits (s.ruleLo n) 30 28
  let scope := bits (s.ruleLo n) 23 16
  (List.range 16).filter fun k =>
    sens == 3 || scope == 0xFF || (sens ≤ 1 && k == scope) || (sens == 2 && k / 4 == scope) || (sens == 4 && k / 4 == scope / 2)

/-- One evaluation of rule `n`: it fires, or stops acting, after its comparison has held, or failed, for DWELL evaluations. A
disabled rule does not act. -/
def State.ruleStep (s : State) (n : Nat) : State :=
  let acts := s.sheler.acting.contains n
  let holds := s.ruleHolds n
  let run := if acts == holds then 0 else Sp.get (fun _ => 0) s.sheler.ruleRun n + 1
  let setRun (r : Nat) (y : Sheler) : Sheler := { y with ruleRun := if r = 0 then Sp.erase y.ruleRun n else Sp.put y.ruleRun n r }
  if acts && !(s.ruleLo n).getLsbD 31 then s.updSheler fun y => { setRun 0 y with acting := y.acting.filter (· != n) }
  else if run = 0 ∨ run < max 1 (bits (s.ruleHi n) 31 16) then s.updSheler (setRun run)
  else if holds then
    let s := s.updSheler fun y => { setRun 0 y with acting := n :: y.acting }
    let act := bits (s.ruleHi n) 15 12
    if act = 1 ∨ act = 2 then s
    else
      let unit := match s.ruleShops n with | [k] => k | _ => 0xFFFF
      s.shelRec 4 unit n (tempData ((s.ruleValue n).getD 0))
  else s.updSheler fun y => { setRun 0 y with acting := y.acting.filter (· != n) }

/-- The rule floor of shop `k`: the largest ARG from 1 to 4 of the acting rules of ACT 1 in whose scope it lies. -/
def State.ruleFloor (s : State) (k : Nat) : Nat :=
  ((s.sheler.acting.filter fun n => bits (s.ruleHi n) 15 12 == 1 && (s.ruleShops n).contains k).map fun n =>
    let a := bits (s.ruleHi n) 11 0
    if a ≤ 4 then a else 0).foldl max 0

/-- RULE_EVALUATION. -/
def ruleEvaluation (s : State) : State :=
  let s := (List.range 64).foldl State.ruleStep s
  (List.finRange 16).foldl (fun s k => (s.setFld .shlShopStat k.val 19 17 (s.ruleFloor k.val)).dropDross k) s

/-- RULE_EVALUATION. -/
def execRuleEvaluation (s : State) : Host.Outcome State Fault Refusal := act s (watching ruleEvaluation)

end Sys2Proof.Machine
end

