-- ==== Sys2Proof/Machine/Service.lean ====
section
/-! DEFINITION. Self-test and bench resets (17 R504, R506, R507; 05 R185), and shift boundaries (11 R372; 13 R425; 15 R461). -/

namespace Sys2Proof.Machine

/-! ## Self-test (17 R504) -/

/-- A verified entry of TYPE `t` for bench `b` (17 R490). -/
def State.benchEntries (s : State) (t : Nat) (b : BenchId) : List (BitVec 128) :=
  s.applicable.filter fun e => entryBits e 7 0 == t && entryBits e 15 8 == b.val

/-- The failed physical rows of a bench: those that the test found, and those of TYPE 3 entries. -/
def State.failedRows (s : State) (t : SelfTest) : List Nat :=
  let rows := t.rows.map (·.toNat) ++ (s.benchEntries 3 t.bench).map fun e => entryBits e 22 16
  (List.range 66).filter rows.contains

/-- The row map of the test: BAD bits of the failed spares, and a usable spare for each failed logical row, in rising order.
DEDUCED, log 110. -/
def rowMap (failed : List Nat) : W32 :=
  let rows := failed.filter (· < 64)
  let spare (v : W32) (sp : Nat) (row : Option Nat) : W32 :=
    match row with
    | none => v
    | some r => setBits (setBits v (13 + 16 * sp) (8 + 16 * sp) r) (15 + 16 * sp) (15 + 16 * sp) 1
  let bad (v : W32) (sp : Nat) : W32 := if failed.contains (64 + sp) then setBits v (14 + 16 * sp) (14 + 16 * sp) 1 else v
  let v := bad (bad 0 0) 1
  if failed.contains 64 then (if failed.contains 65 then v else spare v 1 rows[0]?)
  else if failed.contains 65 then spare v 0 rows[0]?
  else spare (spare v 0 rows[0]?) 1 rows[1]?

/-- Failed logical rows beyond the usable spares: the first of them. -/
def rowBeyond (failed : List Nat) : Option Nat :=
  let usable := (if failed.contains 64 then 0 else 1) + (if failed.contains 65 then 0 else 1)
  (failed.filter (· < 64))[usable]?

/-- A bench is excluded: it is off, SELFTEST_FAIL is written, and the current record gains the exclusion unless it holds it.
DEDUCED, log 111. -/
def State.exclude (s : State) (b : BenchId) (w3 : Nat) : State :=
  let had := s.sec.entries.any fun e => entryBits e 7 0 == 4 && entryBits e 15 8 == b.val
  let s := ((s.setBenchCtl b 0 0 0 0).updBench b fun x => { x with excluded := true }).shelRec 0x10 0xFFFF b.val w3
  if had then s else s.addEntry 4 (b.val * 256)

/-- The outcome of a bench's self-test: its row map is written, and it is excluded when it fails. True: it passes. -/
def State.selfTest (s : State) (t : SelfTest) : State × Bool :=
  let failed := s.failedRows t
  let s := s.setReg ⟨.frgRowmap, t.bench.val, 0⟩ (rowMap failed)
  match t.unit_ with
  | some u => (s.exclude t.bench u.toNat, false)
  | none =>
    match rowBeyond failed with
    | some r => (s.exclude t.bench (6 + 256 * r), false)
    | none =>
      if (s.benchEntries 4 t.bench).isEmpty then (s, true) else (s.exclude t.bench (Config.excludedUnit t.bench.val).toNat, false)

/-! ## Bench resets (17 R506) -/

/-- Steps 1 to 4 of R506: the registers of the bench's window, its state, a new XKEY, and the bench store 0. -/
def State.resetBench (s : State) (b : BenchId) : State :=
  let lo := 0x2000000 + 0x10000 * b.val
  let x := s.bench b
  let ost := (s.reg ⟨.hmkOst, 0, b.val / 32⟩).getLsbD (b.val % 32)
  let fresh : Bench := { openStore := ost, excluded := x.excluded, core := { xkeyBench := b, xkeyDraw := s.draws } }
  let s := { s with regs := Sp.eraseRange s.regs lo (lo + 0x10000), badMoulds := s.badMoulds.filter fun o => !(lo ≤ o && o < lo + 0x10000) }
  s.drawn.setBench b fresh

/-- A write of 1 to FMN_BRESET.GO: refused, with ERR and nothing else changed, while the bench is ON or DRAINING, or another reset runs. -/
def State.benchResetGo (s : State) (b : BenchId) : State :=
  if s.fld .fmnBenchCtl b.val 28 28 = 1 || s.fld .fmnBenchCtl b.val 30 30 = 1 || s.fld .fmnBreset 0 30 30 = 1 then
    s.setFld .fmnBreset 0 29 29 1
  else { ((s.resetBench b).setFld .fmnBreset 0 7 0 b.val).setFld .fmnBreset 0 30 30 1 with resetting := some b, seizing := s.seizing.filter (· != b) }

/-- BENCH_RESET: FMN_BRESET is written with GO and BENCH. -/
def execBenchReset (b : BenchId) (s : State) : Host.Outcome State Fault Refusal :=
  act s (clocked fun s => s.benchResetGo b)

/-- The self-test of the reset bench ends: DONE and PASS; an enable written meanwhile takes effect when the bench passes. DEDUCED, log 109. -/
def benchResetComplete (t : SelfTest) (s : State) : State :=
  if s.resetting ≠ some t.bench then s
  else
    match s.selfTest t with
    | (s, pass) =>
      let s := ((s.setFld .fmnBreset 0 30 30 0).setFld .fmnBreset 0 28 28 1).setFld .fmnBreset 0 27 27 (if pass then 1 else 0)
      let s := { s with resetting := none }
      if pass && s.fld .fmnBenchCtl t.bench.val 31 31 == 1 then s.setBenchCtl t.bench 1 0 0 1 else s

/-- BENCH_RESET_COMPLETE. -/
def execBenchResetComplete (t : SelfTest) (s : State) : Host.Outcome State Fault Refusal := act s (clocked (benchResetComplete t))

/-- SEIZURE_RESET: the foreman frees a seized bench through a reset, and enables it when the reset passes, unless the host has written
EN = 0 meanwhile (R507, 11 R362). -/
def seizureReset (t : SelfTest) (s : State) : State :=
  let b := t.bench
  if s.fld .benXstat b.val 31 31 = 0 then s
  else
    let on := s.seizing.contains b
    match ({ s.resetBench b with seizing := s.seizing.filter (· != b) }).selfTest t with
    | (s, pass) => if pass && on then s.setBenchCtl b 1 0 0 1 else s

/-- SEIZURE_RESET. -/
def execSeizureReset (t : SelfTest) (s : State) : Host.Outcome State Fault Refusal := act s (clocked (seizureReset t))

/-! ## Shifts (11 R372) -/

/-- The channels that have counted in a shift. -/
def State.countedChannels (s : State) : List Nat :=
  (s.mem.corrected.map (·.1) ++ s.mem.uncorrected.map (·.1) ++ s.mem.serv.slices.map (·.1)).eraseDups

/-- A shift boundary: the number advances, and every block latches its counters and restarts them. -/
def State.shiftBoundary (s : State) : State :=
  let n (m : Sparse Nat) (c : Nat) : Nat := Sp.get (fun _ => 0) m c
  let latched : Sparse ChanShift := s.countedChannels.foldl (fun m c =>
    Sp.put m c ⟨n s.mem.corrected c, n s.mem.uncorrected c, n s.mem.serv.slices c⟩) []
  { s.setReg ⟨.fmnShiftNum, 0, 0⟩ (s.reg ⟨.fmnShiftNum, 0, 0⟩ + 1) with
    mem := { s.mem with shift := latched, corrected := [], uncorrected := [], serv := { s.mem.serv with slices := [], reported := [] } }
    sheler := { s.sheler with shift := s.sheler.droops, droops := [] } }

/-- SHIFT_BOUNDARY: the local counter expires, in MODE 1. -/
def execShiftBoundary (s : State) : Host.Outcome State Fault Refusal :=
  act s (clocked fun s => if s.fld .fmnShiftCfg 0 31 30 = 1 then s.shiftBoundary else s)

/-- The PF writes the SHIFT doorbell, in MODE 2; before READY BAR0 writes are ignored (17 R484). DEDUCED, log 133. -/
def State.shiftDoorbell (s : State) (f : FnId) : State :=
  if f.val = 0 && s.ready && s.fld .fmnShiftCfg 0 31 30 == 2 then s.shiftBoundary else s

end Sys2Proof.Machine
end

