-- ==== Sys2Proof/Machine/Doorbell.lean ====
section
/-! DEFINITION. BAR0 and BAR4: the doorbell page (12 R379, table 12.4) and the aperture (12 R381, R382). A request ends Doze (15 R462). -/

namespace Sys2Proof.Machine

/-- A request of the host ends Doze, and is served when the device is awake again (15 R462). -/
def State.rouse (s : State) : State := if s.rootOn then s else s.leaveDoze

/-- The same, for what a clock must run for. -/
def awoken (f : State → State) (s : State) : State := clocked f s.rouse

/-! ## BAR0: doorbells -/

/-- The doorbells of table 12.4. -/
inductive Doorbell where
  | tail (r : RingId)
  | resolved
  | abandoned
  | shift
  | cqHead (r : RingId)
  deriving DecidableEq, Repr

/-- The offset of a doorbell. -/
def bellOffset : Doorbell → Nat
  | .tail r => 4 * r.val
  | .resolved => 0x4000
  | .abandoned => 0x4004
  | .shift => 0x4008
  | .cqHead r => 0x8000 + 4 * r.val

/-- The doorbell at an offset of BAR0; the other offsets are reserved. -/
def doorbellAt (off : Nat) : Option Doorbell :=
  if off % 4 ≠ 0 then none
  else if h : off / 4 < 4096 then some (.tail ⟨off / 4, h⟩)
  else if off = 0x4000 then some .resolved
  else if off = 0x4004 then some .abandoned
  else if off = 0x4008 then some .shift
  else if h : 0x8000 ≤ off ∧ (off - 0x8000) / 4 < 4096 then some (.cqHead ⟨(off - 0x8000) / 4, h.2⟩)
  else none

/-- Function `f` writes `v` to a doorbell. -/
def ringDoorbell (f : FnId) (d : Doorbell) (v : W32) (s : State) : State :=
  match d with
  | .tail r => s.tailDoorbell f r v
  | .resolved => s.resolveFault f v
  | .abandoned => s.dropFault f v
  | .shift => s.shiftDoorbell f
  | .cqHead r => s.cqHeadDoorbell f r v

/-- A write to BAR0 of function `f`: a doorbell is written with one aligned write of 4 bytes; every other write is ignored. -/
def bar0Write (f : FnId) (off : Nat) (data : List Byte) (s : State) : State :=
  match data, doorbellAt off with
  | [a, b, c, d], some x => ringDoorbell f x (d ++ c ++ b ++ a) s
  | _, _ => s

/-- Every read of BAR0 returns 0. -/
def bar0Read (_off len : Nat) : List Byte := List.replicate len 0

/-- The four bytes of a word, lowest first. -/
def wordBytes (v : W32) : List Byte := [v.extractLsb' 0 8, v.extractLsb' 8 8, v.extractLsb' 16 8, v.extractLsb' 24 8]

/-- Function `f` writes the 4 bytes of `v` at the offset of a doorbell. -/
def doorbellWrite (f : FnId) (d : Doorbell) (v : W32) (s : State) : State := bar0Write f (bellOffset d) (wordBytes v) s

/-- RING_TAIL_DOORBELL. -/
def execRingTailDoorbell (f : FnId) (r : RingId) (v : W32) (s : State) : Host.Outcome State Fault Refusal :=
  act s (awoken (doorbellWrite f (.tail r) v))
/-- CQ_HEAD_DOORBELL. -/
def execCqHeadDoorbell (f : FnId) (r : RingId) (v : W32) (s : State) : Host.Outcome State Fault Refusal :=
  act s (awoken (doorbellWrite f (.cqHead r) v))
/-- FAULT_RESOLVED. -/
def execFaultResolved (f : FnId) (v : W32) (s : State) : Host.Outcome State Fault Refusal :=
  act s (awoken (doorbellWrite f .resolved v))
/-- FAULT_ABANDONED. -/
def execFaultAbandoned (f : FnId) (v : W32) (s : State) : Host.Outcome State Fault Refusal :=
  act s (awoken (doorbellWrite f .abandoned v))
/-- SHIFT_DOORBELL: any value. -/
def execShiftDoorbell (f : FnId) (s : State) : Host.Outcome State Fault Refusal := act s (awoken (doorbellWrite f .shift 0))

/-! ## BAR4: the aperture (R381, R382) -/

/-- The enabled aperture window of lowest number that serves offset `o` on link `k`. -/
def State.awin (s : State) (k : LinkId) (o : Nat) : Option (Fin 64) :=
  (List.finRange 64).find? fun w =>
    s.fld .pexAwinCfg w.val 31 31 == 1 && s.fld .pexAwinOff w.val 31 30 == k.val
      && decide (s.fld .pexAwinOff w.val 17 0 ≤ o / 0x200000)
      && decide (o / 0x200000 < s.fld .pexAwinOff w.val 17 0 + s.fld .pexAwinLen w.val 17 0)

/-- The DPA that a BAR4 offset reaches through window `w`, and the end of the window as an offset. -/
def State.awinDpa (s : State) (w : Fin 64) (o : Nat) : Nat :=
  s.fld .pexAwinLot w.val 26 0 * 0x200000 + (o - s.fld .pexAwinOff w.val 17 0 * 0x200000)
def State.awinEnd (s : State) (w : Fin 64) : Nat :=
  (s.fld .pexAwinOff w.val 17 0 + s.fld .pexAwinLen w.val 17 0) * 0x200000

/-- The requester of a window, and its class. -/
def State.awinReq (s : State) (w : Fin 64) : Requester :=
  { hmk := BitVec.ofNat 12 (s.fld .pexAwinCfg w.val 27 16), smask := BitVec.ofNat 16 (s.fld .pexAwinCfg w.val 15 0) }
def State.awinWatched (s : State) (w : Fin 64) : Bool := s.fld .pexAwinCfg w.val 29 29 == 1

/-- A BAR4 record: BAR4_MISS (3) or POISONED_WRITE (4), with the offset. -/
def State.bar4Rec (s : State) (event : BitVec 16) (o : Nat) : State := s.record { src := 6, event, w2 := BitVec.ofNat 64 o }

/-- Reads `len` bytes in aligned units of `u` bytes, at most `n` units. -/
def barReads (q : Requester) (watched : Bool) (u : Nat) : Nat → Nat → Nat → State → State × Option (List Byte)
  | 0, _, _, s => (s, some [])
  | n + 1, a, len, s =>
    if len = 0 then (s, some [])
    else
      let k := min len (u - a % u)
      match s.dpaRead q a k watched with
      | (s, .bad _) => (s, none)
      | (s, .ok d) =>
        match barReads q watched u n (a + k) (len - k) s with
        | (s, some r) => (s, some (d ++ r))
        | (s, none) => (s, none)

/-- Writes bytes in aligned units of `u` bytes; a unit that its lot refuses is discarded. -/
def barWrites (q : Requester) (watched : Bool) (u : Nat) : Nat → Nat → List Byte → State → State
  | 0, _, _, s => s
  | n + 1, a, data, s =>
    if data.isEmpty then s
    else
      let k := u - a % u
      barWrites q watched u n (a + k) (data.drop k) (s.dpaWrite q a (data.take k) watched).1

/-- The aligned unit of a class (08 R267). -/
def unitOf (watched : Bool) : Nat := if watched then 128 else 64

/-- The channel in self-refresh that a range of DPAs reaches first, by units of 64 bytes. -/
def State.rangeSleeps (s : State) (a len : Nat) : Option Nat := (List.range (len / 64 + 1)).findSome? fun i => s.sleeps (min (a + 64 * i) (a + len - 1))

/-- BAR4_READ. A request whose stack's queue has no room waits with the port (13 R414). Before READY every request is answered with Unsupported Request (17 R484). DEDUCED, log 84. -/
def bar4Read (k : LinkId) (off len : Nat) (s : State) : State :=
  if !s.linkUp k then s
  else if !s.ready then s.emit (.unsupported k)
  else
    match s.awin k off with
    | none => (s.bar4Rec 3 off).emit (.unsupported k)
    | some w =>
      if s.awinEnd w < off + len then (s.bar4Rec 3 off).emit (.unsupported k)
      else
        let c := s.rangeSleeps (s.awinDpa w off) len
        if c.any s.chanFull then s
        else
          match barReads (s.awinReq w) (s.awinWatched w) (unitOf (s.awinWatched w)) (len / 64 + 2) (s.awinDpa w off) len s with
          | (s, some d) => s.answerHost c (.barData k d false)
          | (s, none) => s.answerHost c (.barData k [] true)

/-- BAR4_READ. -/
def execBar4Read (k : LinkId) (off len : Nat) (s : State) : Host.Outcome State Fault Refusal := act s (live fun s => bar4Read k off len s.rouse)

/-- BAR4_WRITE. -/
def bar4Write (k : LinkId) (off : Nat) (data : List Byte) (poisoned : Bool) (s : State) : State :=
  if !s.linkUp k then s
  else if !s.ready then s.emit (.unsupported k)
  else if poisoned then s.bar4Rec 4 off
  else
    match s.awin k off with
    | none => s.bar4Rec 3 off
    | some w =>
      if s.fld .pexAwinCfg w.val 30 30 = 0 then s.bar4Rec 3 off
      else
        let room := s.awinEnd w - off
        let c := s.rangeSleeps (s.awinDpa w off) (min room data.length)
        if c.any s.chanFull then s
        else
        let s := match c with | some c => s.holdAt c .write | none => s
        let s' := barWrites (s.awinReq w) (s.awinWatched w) (unitOf (s.awinWatched w)) (data.length / 64 + 2) (s.awinDpa w off)
          (data.take room) s
        if room < data.length then s'.bar4Rec 3 off else s'

/-- BAR4_WRITE. -/
def execBar4Write (k : LinkId) (off : Nat) (data : List Byte) (poisoned : Bool) (s : State) : Host.Outcome State Fault Refusal :=
  act s (live fun s => bar4Write k off data poisoned s.rouse)

/-- BAR4_ATOMICOP. -/
def execBar4Atomicop (k : LinkId) (off : Nat) (s : State) : Host.Outcome State Fault Refusal :=
  act s (live fun s => if s.linkUp k && decide (off < 2 ^ 39) then s.rouse.emit (.unsupported k) else s)

end Sys2Proof.Machine
end

