-- ==== Sys2Proof/Machine/Entry.lean ====
section
/-! DEFINITION. EXCEPTION_ENTRY: the entry that an interrupt point takes, and the words that no other command names (02 R44, R55,
R60; 03 R95, R109; 08 R256, R263; 09 R292; 11 R346, R349). -/

namespace Sys2Proof.Machine

/-! ## Words that are no instruction -/

/-- What decoding says of a word that no instruction command names. -/
inductive WordClass where
  | illegal | reserved
  /-- A command names the instruction. -/
  | named
  deriving DecidableEq, Repr

/-- Assigned functions of a format VV opcode (04 table 4.4); 0: not such an opcode. -/
def vvFunctions (opc : Nat) : Nat :=
  match opc with
  | 0x50 | 0x51 | 0x64 => 8
  | 0x52 | 0x58 | 0x68 => 7
  | 0x5C => 6
  | 0x6C => 5
  | 0x53 | 0x59 | 0x5A | 0x5D => 4
  | 0x69 => 2
  | _ => 0

/-- The opcode is assigned (02 table 2.3, 04 table 4.4, 05 table 5.1, 07 table 7.1). -/
def opcAssigned (opc : Nat) : Bool :=
  (1 ≤ opc && opc ≤ 0x0A) || opc == 0x10 || opc == 0x11 || opc == 0x18 || (0x20 ≤ opc && opc ≤ 0x26)
    || (0x28 ≤ opc && opc ≤ 0x2D) || (0x30 ≤ opc && opc ≤ 0x34) || (0x38 ≤ opc && opc ≤ 0x3D) || opc == 0x40 || opc == 0x41
    || (0x44 ≤ opc && opc ≤ 0x4A) || vvFunctions opc != 0 || opc == 0x60 || opc == 0x6E || opc == 0x6F
    || (0x80 ≤ opc && opc ≤ 0x84) || opc == 0x88 || opc == 0x89

/-- The class of a word. -/
def wordClass (w : W36) : WordClass :=
  let opc := (w.extractLsb' 24 8).toNat
  let fn := (w.setWidth 8 : BitVec 8).toNat
  if opc = 0 ∨ 0xE0 ≤ opc then .illegal
  else if !opcAssigned opc then .reserved
  else if 0 < vvFunctions opc then
    if fn % 8 < vvFunctions opc then .named else if fn / 8 % 4 = 3 then .illegal else .reserved
  else
    match opc with
    | 0x01 => if fn ≤ 0x11 then .named else .reserved
    | 0x10 => if fn ≤ 2 then .named else .reserved
    | 0x11 => if fn ≤ 3 then .named else .reserved
    | 0x26 =>
      if (w.extractLsb' 5 4).toNat < 13 then .named else if 6 ≤ (w.setWidth 3 : BitVec 3).toNat then .illegal else .reserved
    | 0x38 => if w.extractLsb' 19 2 = 3#2 then .illegal else .named
    | 0x3C => if 5 ≤ (w.extractLsb' 21 3).toNat then .illegal else .named
    | _ => .named

/-- The opcode is a long form (02 table 2.3). -/
def opcLong (w : W36) : Bool := 0x08#8 ≤ w.extractLsb' 24 8 && w.extractLsb' 24 8 ≤ 0x0A#8

/-- A word that no other command names reaches Decode. -/
def entryWord (b : BenchId) (w imm : W36) (s : State) : State :=
  match wordClass w with
  | .named => s
  | c => issue b { word := w, imm, long := opcLong w, illegal := c == .illegal, reserved := c == .reserved } (fun s => .done s 2 false) s

/-! ## Interrupt points -/

/-- The core takes no entry while halted, but for a STEP (02 R86). -/
def State.canEnter (s : State) (b : BenchId) : Bool :=
  let x := s.bench b
  s.aclock b && x.core.running && !x.core.stopping && (!x.core.halted || x.core.stepping) && x.atPoint

/-- The stalled instruction before an entry: a PEAL completes (11 R349); an access that waits is withdrawn (09 R292); any other
stays not completed. -/
def State.leaveStall (s : State) (b : BenchId) : State :=
  let c := (s.bench b).core
  match c.stall with
  | some (.bell _ _ _ _ (some _)) =>
    let p := loopEnd c.pc c.loops (c.pc + 1)
    s.complete b (s.fetchCycles b + 4) p.1 p.2 false
  | some (.fault ..) => (s.withdraw (.core b)).updCore b fun c => { c with stall := none }
  | _ => s.updCore b fun c => { c with stall := none }

/-- EXCEPTION_ENTRY at an interrupt point: nothing changes when no cause can be taken. -/
def entryPoint (b : BenchId) (s : State) : State :=
  if !s.canEnter b then s
  else
    match s.pick b with
    | none => s
    | some t => (s.leaveStall b).take b t

/-- EXCEPTION_ENTRY. -/
def execExceptionEntry (b : BenchId) (why : EntryWhy) (s : State) : Host.Outcome State Fault Refusal :=
  act s fun s =>
    match why with
    | .point => entryPoint b s
    | .word w imm => entryWord b w imm s

end Sys2Proof.Machine
end

