-- ==== Sys2Proof/Machine/LatheOps.lean ====
section
/-! DEFINITION. The lathe instructions as commands (04 table 4.4): each names its operation; how far it
comes is the command's operand. -/

namespace Sys2Proof.Machine

/-- VSETL (04). DEDUCED, log 31. -/
def execVsetl (b : BenchId) (f : FmtVS) (s : State) : Host.Outcome State Fault Refusal :=
  act s (latheCmd b (.vsetl f) {})

/-- VCSR (04). -/
def execVcsr (b : BenchId) (f : FmtVC) (s : State) : Host.Outcome State Fault Refusal :=
  act s (latheCmd b (.vcsr f) {})

/-- VLD (04). -/
def execVld (b : BenchId) (x : Moving FmtVM) (s : State) : Host.Outcome State Fault Refusal :=
  act s (latheCmd b (.vm .vld x.f) { stop := x.stop })

/-- VST (04). -/
def execVst (b : BenchId) (x : Moving FmtVM) (s : State) : Host.Outcome State Fault Refusal :=
  act s (latheCmd b (.vm .vst x.f) { stop := x.stop })

/-- VLDS (04). -/
def execVlds (b : BenchId) (x : Moving FmtVM) (s : State) : Host.Outcome State Fault Refusal :=
  act s (latheCmd b (.vm .vlds x.f) { stop := x.stop })

/-- VSTS (04). -/
def execVsts (b : BenchId) (x : Moving FmtVM) (s : State) : Host.Outcome State Fault Refusal :=
  act s (latheCmd b (.vm .vsts x.f) { stop := x.stop })

/-- VGATH (04). -/
def execVgath (b : BenchId) (x : Moving FmtVM) (s : State) : Host.Outcome State Fault Refusal :=
  act s (latheCmd b (.vm .vgath x.f) { stop := x.stop })

/-- VSCAT (04). -/
def execVscat (b : BenchId) (x : Moving FmtVM) (s : State) : Host.Outcome State Fault Refusal :=
  act s (latheCmd b (.vm .vscat x.f) { stop := x.stop })

/-- VGATH.FF (04). -/
def execVgathFf (b : BenchId) (x : Moving FmtVM) (s : State) : Host.Outcome State Fault Refusal :=
  act s (latheCmd b (.vm .vgathFf x.f) { stop := x.stop })

/-- VADD (04). -/
def execVadd (b : BenchId) (f : FmtVV) (p : Pace) (s : State) : Host.Outcome State Fault Refusal :=
  act s (latheCmd b (.vv .vadd f) p)

/-- VSUB (04). -/
def execVsub (b : BenchId) (f : FmtVV) (p : Pace) (s : State) : Host.Outcome State Fault Refusal :=
  act s (latheCmd b (.vv .vsub f) p)

/-- VRSUB (04). -/
def execVrsub (b : BenchId) (f : FmtVV) (p : Pace) (s : State) : Host.Outcome State Fault Refusal :=
  act s (latheCmd b (.vv .vrsub f) p)

/-- VAND (04). -/
def execVand (b : BenchId) (f : FmtVV) (p : Pace) (s : State) : Host.Outcome State Fault Refusal :=
  act s (latheCmd b (.vv .vand f) p)

/-- VOR (04). -/
def execVor (b : BenchId) (f : FmtVV) (p : Pace) (s : State) : Host.Outcome State Fault Refusal :=
  act s (latheCmd b (.vv .vor f) p)

/-- VXOR (04). -/
def execVxor (b : BenchId) (f : FmtVV) (p : Pace) (s : State) : Host.Outcome State Fault Refusal :=
  act s (latheCmd b (.vv .vxor f) p)

/-- VSLL (04). -/
def execVsll (b : BenchId) (f : FmtVV) (p : Pace) (s : State) : Host.Outcome State Fault Refusal :=
  act s (latheCmd b (.vv .vsll f) p)

/-- VSRL (04). -/
def execVsrl (b : BenchId) (f : FmtVV) (p : Pace) (s : State) : Host.Outcome State Fault Refusal :=
  act s (latheCmd b (.vv .vsrl f) p)

/-- VSRA (04). -/
def execVsra (b : BenchId) (f : FmtVV) (p : Pace) (s : State) : Host.Outcome State Fault Refusal :=
  act s (latheCmd b (.vv .vsra f) p)

/-- VMIN (04). -/
def execVmin (b : BenchId) (f : FmtVV) (p : Pace) (s : State) : Host.Outcome State Fault Refusal :=
  act s (latheCmd b (.vv .vmin f) p)

/-- VMAX (04). -/
def execVmax (b : BenchId) (f : FmtVV) (p : Pace) (s : State) : Host.Outcome State Fault Refusal :=
  act s (latheCmd b (.vv .vmax f) p)

/-- VMINU (04). -/
def execVminu (b : BenchId) (f : FmtVV) (p : Pace) (s : State) : Host.Outcome State Fault Refusal :=
  act s (latheCmd b (.vv .vminu f) p)

/-- VMAXU (04). -/
def execVmaxu (b : BenchId) (f : FmtVV) (p : Pace) (s : State) : Host.Outcome State Fault Refusal :=
  act s (latheCmd b (.vv .vmaxu f) p)

/-- VMUL (04). -/
def execVmul (b : BenchId) (f : FmtVV) (p : Pace) (s : State) : Host.Outcome State Fault Refusal :=
  act s (latheCmd b (.vv .vmul f) p)

/-- VMULH (04). -/
def execVmulh (b : BenchId) (f : FmtVV) (p : Pace) (s : State) : Host.Outcome State Fault Refusal :=
  act s (latheCmd b (.vv .vmulh f) p)

/-- VMULHU (04). -/
def execVmulhu (b : BenchId) (f : FmtVV) (p : Pace) (s : State) : Host.Outcome State Fault Refusal :=
  act s (latheCmd b (.vv .vmulhu f) p)

/-- VADDSAT (04). -/
def execVaddsat (b : BenchId) (f : FmtVV) (p : Pace) (s : State) : Host.Outcome State Fault Refusal :=
  act s (latheCmd b (.vv .vaddsat f) p)

/-- VADDSATU (04). -/
def execVaddsatu (b : BenchId) (f : FmtVV) (p : Pace) (s : State) : Host.Outcome State Fault Refusal :=
  act s (latheCmd b (.vv .vaddsatu f) p)

/-- VSUBSAT (04). -/
def execVsubsat (b : BenchId) (f : FmtVV) (p : Pace) (s : State) : Host.Outcome State Fault Refusal :=
  act s (latheCmd b (.vv .vsubsat f) p)

/-- VSUBSATU (04). -/
def execVsubsatu (b : BenchId) (f : FmtVV) (p : Pace) (s : State) : Host.Outcome State Fault Refusal :=
  act s (latheCmd b (.vv .vsubsatu f) p)

/-- VAVG (04). -/
def execVavg (b : BenchId) (f : FmtVV) (p : Pace) (s : State) : Host.Outcome State Fault Refusal :=
  act s (latheCmd b (.vv .vavg f) p)

/-- VAVGU (04). -/
def execVavgu (b : BenchId) (f : FmtVV) (p : Pace) (s : State) : Host.Outcome State Fault Refusal :=
  act s (latheCmd b (.vv .vavgu f) p)

/-- VFRMUL (04). -/
def execVfrmul (b : BenchId) (f : FmtVV) (p : Pace) (s : State) : Host.Outcome State Fault Refusal :=
  act s (latheCmd b (.vv .vfrmul f) p)

/-- VSHRR (04). -/
def execVshrr (b : BenchId) (f : FmtVV) (p : Pace) (s : State) : Host.Outcome State Fault Refusal :=
  act s (latheCmd b (.vv .vshrr f) p)

/-- VSHRRA (04). -/
def execVshrra (b : BenchId) (f : FmtVV) (p : Pace) (s : State) : Host.Outcome State Fault Refusal :=
  act s (latheCmd b (.vv .vshrra f) p)

/-- VCLIPNU (04). -/
def execVclipnu (b : BenchId) (f : FmtVV) (p : Pace) (s : State) : Host.Outcome State Fault Refusal :=
  act s (latheCmd b (.vv .vclipnu f) p)

/-- VCLIPN (04). -/
def execVclipn (b : BenchId) (f : FmtVV) (p : Pace) (s : State) : Host.Outcome State Fault Refusal :=
  act s (latheCmd b (.vv .vclipn f) p)

/-- VFADD (04). -/
def execVfadd (b : BenchId) (f : FmtVV) (p : Pace) (s : State) : Host.Outcome State Fault Refusal :=
  act s (latheCmd b (.vv .vfadd f) p)

/-- VFSUB (04). -/
def execVfsub (b : BenchId) (f : FmtVV) (p : Pace) (s : State) : Host.Outcome State Fault Refusal :=
  act s (latheCmd b (.vv .vfsub f) p)

/-- VFMUL (04). -/
def execVfmul (b : BenchId) (f : FmtVV) (p : Pace) (s : State) : Host.Outcome State Fault Refusal :=
  act s (latheCmd b (.vv .vfmul f) p)

/-- VFDIV (04). -/
def execVfdiv (b : BenchId) (f : FmtVV) (p : Pace) (s : State) : Host.Outcome State Fault Refusal :=
  act s (latheCmd b (.vv .vfdiv f) p)

/-- VFSQRT (04). -/
def execVfsqrt (b : BenchId) (f : FmtVV) (p : Pace) (s : State) : Host.Outcome State Fault Refusal :=
  act s (latheCmd b (.vv .vfsqrt f) p)

/-- VFMINNUM (04). -/
def execVfminnum (b : BenchId) (f : FmtVV) (p : Pace) (s : State) : Host.Outcome State Fault Refusal :=
  act s (latheCmd b (.vv .vfminnum f) p)

/-- VFMAXNUM (04). -/
def execVfmaxnum (b : BenchId) (f : FmtVV) (p : Pace) (s : State) : Host.Outcome State Fault Refusal :=
  act s (latheCmd b (.vv .vfmaxnum f) p)

/-- VFMIN (04). -/
def execVfmin (b : BenchId) (f : FmtVV) (p : Pace) (s : State) : Host.Outcome State Fault Refusal :=
  act s (latheCmd b (.vv .vfmin f) p)

/-- VFMAX (04). -/
def execVfmax (b : BenchId) (f : FmtVV) (p : Pace) (s : State) : Host.Outcome State Fault Refusal :=
  act s (latheCmd b (.vv .vfmax f) p)

/-- VFABS (04). -/
def execVfabs (b : BenchId) (f : FmtVV) (p : Pace) (s : State) : Host.Outcome State Fault Refusal :=
  act s (latheCmd b (.vv .vfabs f) p)

/-- VFNEG (04). -/
def execVfneg (b : BenchId) (f : FmtVV) (p : Pace) (s : State) : Host.Outcome State Fault Refusal :=
  act s (latheCmd b (.vv .vfneg f) p)

/-- VFMA (04). -/
def execVfma (b : BenchId) (f : FmtVV) (p : Pace) (s : State) : Host.Outcome State Fault Refusal :=
  act s (latheCmd b (.vv .vfma f) p)

/-- VFMS (04). -/
def execVfms (b : BenchId) (f : FmtVV) (p : Pace) (s : State) : Host.Outcome State Fault Refusal :=
  act s (latheCmd b (.vv .vfms f) p)

/-- VFNMA (04). -/
def execVfnma (b : BenchId) (f : FmtVV) (p : Pace) (s : State) : Host.Outcome State Fault Refusal :=
  act s (latheCmd b (.vv .vfnma f) p)

/-- VFNMS (04). -/
def execVfnms (b : BenchId) (f : FmtVV) (p : Pace) (s : State) : Host.Outcome State Fault Refusal :=
  act s (latheCmd b (.vv .vfnms f) p)

/-- VCEQ (04). -/
def execVceq (b : BenchId) (f : FmtVV) (p : Pace) (s : State) : Host.Outcome State Fault Refusal :=
  act s (latheCmd b (.vv .vceq f) p)

/-- VCNE (04). -/
def execVcne (b : BenchId) (f : FmtVV) (p : Pace) (s : State) : Host.Outcome State Fault Refusal :=
  act s (latheCmd b (.vv .vcne f) p)

/-- VCLT (04). -/
def execVclt (b : BenchId) (f : FmtVV) (p : Pace) (s : State) : Host.Outcome State Fault Refusal :=
  act s (latheCmd b (.vv .vclt f) p)

/-- VCGE (04). -/
def execVcge (b : BenchId) (f : FmtVV) (p : Pace) (s : State) : Host.Outcome State Fault Refusal :=
  act s (latheCmd b (.vv .vcge f) p)

/-- VCLTU (04). -/
def execVcltu (b : BenchId) (f : FmtVV) (p : Pace) (s : State) : Host.Outcome State Fault Refusal :=
  act s (latheCmd b (.vv .vcltu f) p)

/-- VCGEU (04). -/
def execVcgeu (b : BenchId) (f : FmtVV) (p : Pace) (s : State) : Host.Outcome State Fault Refusal :=
  act s (latheCmd b (.vv .vcgeu f) p)

/-- VFCEQ (04). -/
def execVfceq (b : BenchId) (f : FmtVV) (p : Pace) (s : State) : Host.Outcome State Fault Refusal :=
  act s (latheCmd b (.vv .vfceq f) p)

/-- VFCLT (04). -/
def execVfclt (b : BenchId) (f : FmtVV) (p : Pace) (s : State) : Host.Outcome State Fault Refusal :=
  act s (latheCmd b (.vv .vfclt f) p)

/-- VFCLE (04). -/
def execVfcle (b : BenchId) (f : FmtVV) (p : Pace) (s : State) : Host.Outcome State Fault Refusal :=
  act s (latheCmd b (.vv .vfcle f) p)

/-- VFCUN (04). -/
def execVfcun (b : BenchId) (f : FmtVV) (p : Pace) (s : State) : Host.Outcome State Fault Refusal :=
  act s (latheCmd b (.vv .vfcun f) p)

/-- VRSUM (04). -/
def execVrsum (b : BenchId) (f : FmtVV) (p : Pace) (s : State) : Host.Outcome State Fault Refusal :=
  act s (latheCmd b (.vv .vrsum f) p)

/-- VRMAX (04). -/
def execVrmax (b : BenchId) (f : FmtVV) (p : Pace) (s : State) : Host.Outcome State Fault Refusal :=
  act s (latheCmd b (.vv .vrmax f) p)

/-- VRMIN (04). -/
def execVrmin (b : BenchId) (f : FmtVV) (p : Pace) (s : State) : Host.Outcome State Fault Refusal :=
  act s (latheCmd b (.vv .vrmin f) p)

/-- VRMAXU (04). -/
def execVrmaxu (b : BenchId) (f : FmtVV) (p : Pace) (s : State) : Host.Outcome State Fault Refusal :=
  act s (latheCmd b (.vv .vrmaxu f) p)

/-- VRMINU (04). -/
def execVrminu (b : BenchId) (f : FmtVV) (p : Pace) (s : State) : Host.Outcome State Fault Refusal :=
  act s (latheCmd b (.vv .vrminu f) p)

/-- VFRSUM (04). -/
def execVfrsum (b : BenchId) (f : FmtVV) (p : Pace) (s : State) : Host.Outcome State Fault Refusal :=
  act s (latheCmd b (.vv .vfrsum f) p)

/-- VFRMAX (04). -/
def execVfrmax (b : BenchId) (f : FmtVV) (p : Pace) (s : State) : Host.Outcome State Fault Refusal :=
  act s (latheCmd b (.vv .vfrmax f) p)

/-- VFRMIN (04). -/
def execVfrmin (b : BenchId) (f : FmtVV) (p : Pace) (s : State) : Host.Outcome State Fault Refusal :=
  act s (latheCmd b (.vv .vfrmin f) p)

/-- MAND (04). -/
def execMand (b : BenchId) (f : FmtVV) (p : Pace) (s : State) : Host.Outcome State Fault Refusal :=
  act s (latheCmd b (.vv .mand f) p)

/-- MOR (04). -/
def execMor (b : BenchId) (f : FmtVV) (p : Pace) (s : State) : Host.Outcome State Fault Refusal :=
  act s (latheCmd b (.vv .mor f) p)

/-- MXOR (04). -/
def execMxor (b : BenchId) (f : FmtVV) (p : Pace) (s : State) : Host.Outcome State Fault Refusal :=
  act s (latheCmd b (.vv .mxor f) p)

/-- MANDN (04). -/
def execMandn (b : BenchId) (f : FmtVV) (p : Pace) (s : State) : Host.Outcome State Fault Refusal :=
  act s (latheCmd b (.vv .mandn f) p)

/-- MNOT (04). -/
def execMnot (b : BenchId) (f : FmtVV) (p : Pace) (s : State) : Host.Outcome State Fault Refusal :=
  act s (latheCmd b (.vv .mnot f) p)

/-- MCLR (04). -/
def execMclr (b : BenchId) (f : FmtVV) (p : Pace) (s : State) : Host.Outcome State Fault Refusal :=
  act s (latheCmd b (.vv .mclr f) p)

/-- VMPOP (04). -/
def execVmpop (b : BenchId) (f : FmtVV) (p : Pace) (s : State) : Host.Outcome State Fault Refusal :=
  act s (latheCmd b (.vv .vmpop f) p)

/-- VMFIRST (04). -/
def execVmfirst (b : BenchId) (f : FmtVV) (p : Pace) (s : State) : Host.Outcome State Fault Refusal :=
  act s (latheCmd b (.vv .vmfirst f) p)

/-- VMV (04). -/
def execVmv (b : BenchId) (f : FmtVV) (p : Pace) (s : State) : Host.Outcome State Fault Refusal :=
  act s (latheCmd b (.vv .vmv f) p)

/-- VMERGE (04). -/
def execVmerge (b : BenchId) (f : FmtVV) (p : Pace) (s : State) : Host.Outcome State Fault Refusal :=
  act s (latheCmd b (.vv .vmerge f) p)

/-- VEXT (04). -/
def execVext (b : BenchId) (f : FmtVV) (p : Pace) (s : State) : Host.Outcome State Fault Refusal :=
  act s (latheCmd b (.vv .vext f) p)

/-- VINS (04). -/
def execVins (b : BenchId) (f : FmtVV) (p : Pace) (s : State) : Host.Outcome State Fault Refusal :=
  act s (latheCmd b (.vv .vins f) p)

/-- VID (04). -/
def execVid (b : BenchId) (f : FmtVV) (p : Pace) (s : State) : Host.Outcome State Fault Refusal :=
  act s (latheCmd b (.vv .vid f) p)

/-- MSET_MASK (04). -/
def execMsetMask (b : BenchId) (f : FmtVV) (p : Pace) (s : State) : Host.Outcome State Fault Refusal :=
  act s (latheCmd b (.vv .mset f) p)

/-- VCVT (04). -/
def execVcvt (b : BenchId) (f : FmtVX) (p : Pace) (s : State) : Host.Outcome State Fault Refusal :=
  act s (latheCmd b (.vcvt f) p)

/-- VTLD (04). -/
def execVtld (b : BenchId) (f : FmtVT) (p : Pace) (s : State) : Host.Outcome State Fault Refusal :=
  act s (latheCmd b (.vtld f) p)

/-- VTST (04). -/
def execVtst (b : BenchId) (f : FmtVT) (p : Pace) (s : State) : Host.Outcome State Fault Refusal :=
  act s (latheCmd b (.vtst f) p)

end Sys2Proof.Machine
end

