-- ==== Sys2Proof/Machine/RegRead.lean ====
section
/-! DEFINITION. Reading registers (16 R466-R469, R471; 12 R376, R378, R390; 17 R484): what a register shows of the unit behind it,
and what each path reaches. -/

namespace Sys2Proof.Machine

/-! ## What a register shows -/

/-- BEN_DBG_STATUS (02). -/
def State.dbgStatus (s : State) (b : BenchId) : W32 :=
  let x := s.bench b
  let flag (v : Bool) (k : Nat) : W32 := if v then BitVec.ofNat 32 (2 ^ k) else 0
  setBits 0 7 4 x.core.why.toNat ||| flag x.forge.queue.isEmpty 3 ||| flag x.lathe.queue.isEmpty 2
    ||| flag (x.core.halted && x.core.stall.isSome) 1 ||| flag x.core.halted 0

/-- FRG_STATUS (05 R185, R186): the latency is 17 with a spare in use. -/
def State.forgeStatus (s : State) (b : BenchId) : W32 :=
  let x := (s.bench b).forge
  let used := (if s.spareValid b 0 then 1 else 0) + (if s.spareValid b 1 then 1 else 0)
  let v := setBits (setBits 0 23 16 (if used = 0 then 16 else 17)) 11 10 used
  setBits (setBits (setBits v 9 9 (if x.spare.isSome then 1 else 0)) 8 8 (if x.quiescent then 1 else 0)) 4 0 x.queue.length

/-- FRG_PLATE_GEOM (05 R159). -/
def State.plateGeom (s : State) (b : BenchId) : W32 :=
  let x := (s.bench b).forge
  BitVec.ofNat 32 (x.pclB.toNat * 64 + x.weB.toNat * 16 + x.pclA.toNat * 4 + x.weA.toNat)

/-- CRU_STATUS (07). DEDUCED, log 113. -/
def State.cruStatus (s : State) (b : BenchId) : W32 :=
  let x := (s.bench b).forge
  let quenched := s.fld .shlShopStat (shopOf b).val 31 29 == 4 && (x.array.isSome || x.ladle.isSome)
  let held := ((x.arrayHeld || x.ladleHeld) && x.cause == causeArith) || quenched
  let flag (v : Bool) (k : Nat) : W32 := if v then BitVec.ofNat 32 (2 ^ k) else 0
  setBits 0 22 16 ((x.ladle.map (·.rows)).getD 0) ||| flag (s.drainStopped b) 3 ||| flag x.array.isSome 2 ||| flag held 1 ||| flag x.ladle.isSome 0

/-- Requests of an engine in flight, as far as a field of ten bits shows them. -/
def State.requests (s : State) (e : Engine) : Nat := min 1023 (s.underway.filter fun f => f.who.eng == e).length

/-- A wait on the fault table. A run waits there, a ring, or a run waits on a hopper. -/
def EngWait.onFault (w : EngWait) : Bool := match w with | .fault _ | .quota => true | _ => false
def Run.faultWait (r : Run) : Bool := match r.st with | .wait w _ => w.onFault | _ => false
def ringFaultWait (w : Option RingWait) : Bool := match w with | some x => x.wait.onFault | none => false
def Run.onHop (r : Run) : Bool := match r.st with | .hop => true | _ => false

/-- CRT_STATUS (10). -/
def State.carterStatus (s : State) (c : CarterId) : W32 :=
  let x := s.carter c
  let runs := x.loc ++ x.fore
  let ladle : Bool := match c with
    | .bench k => k.val % 2 == 1 && !s.settled (.ladle ⟨k.val / 2, by omega⟩)
    | _ => false
  let bit (v : Bool) : Nat := if v then 1 else 0
  setBits (setBits (s.reg (carterReg c 3)) 28 25
    (8 * bit x.err + 4 * bit (runs.any (·.faultWait) || ringFaultWait x.ringWait) + 2 * bit (runs.any (·.onHop)) + bit ladle))
    9 0 (s.requests (.carter c))

/-- ALY_Qh_STATUS (14): LADLE and LBUSY are reserved. -/
def State.quarterStatus (s : State) (q : HallId) : W32 :=
  let x := s.quarter q
  let bit (v : Bool) : Nat := if v then 1 else 0
  let waits := ringFaultWait x.ringWait || (x.coll.any fun c => c.wait.any (·.onFault))
  setBits (setBits (s.reg ⟨.alyQStatus, q.val, 0⟩) 28 27 (2 * bit x.err + bit waits)) 9 0 (s.requests (.quarter q))

/-- HOP_STATUS (10): OPEN and FILL. -/
def State.hopperStatus (s : State) (h : HopperId) : W32 :=
  let x := s.hopper h
  setBits (setBits (s.reg ⟨.hopStatus, h.val, 0⟩) 28 28 (if x.open_.isSome then 1 else 0)) 24 0 (x.wr - x.rel).toNat

/-- XLT_FTE_STAT (09) of the selected entry. -/
def State.fteStat (s : State) : W32 :=
  let e := s.fault (s.fld .xltFteSel 0 7 0)
  setBits (setBits (setBits (setBits 0 31 31 (if e.used then 1 else 0)) 23 16 e.gen.toNat) 15 8 e.join.toNat) 7 0 e.sub.toNat

/-- SHL_SENS_DATA (15) of the selected sensor. -/
def State.sensData (s : State) : W32 :=
  let n := s.fld .shlSensSel 0 7 0
  let v (m : Sparse Int) : Nat := (BitVec.ofInt 16 (Sp.get (fun _ => 0) m n)).toNat
  if 144 < n then 0 else setBits (setBits 0 31 16 (v s.sheler.filt)) 15 0 (v s.sheler.raw)

/-- CRU_ROWERR_CNT (07) of the selected row. -/
def State.rowErrCnt (s : State) (b : BenchId) : W32 :=
  let row := s.fld .cruRowerrSel b.val 6 0
  if row < 66 then (Sp.get (fun _ => 0#8) (s.bench b).forge.rowErr row).setWidth 32 else 0

/-- Carter number `n` of 512, 32 or 16. -/
def carterOf (k : RegKind) (n : Nat) : CarterId :=
  match k with
  | .crtSRingLo | .crtSRingHi | .crtSRingCfg | .crtSStatus | .crtSCtl => .shop ⟨n % 32, by omega⟩
  | .crtLRingLo | .crtLRingHi | .crtLRingCfg | .crtLStatus | .crtLCtl => .link ⟨n % 16, by omega⟩
  | _ => .bench ⟨n % 512, by omega⟩

/-- A hall by number. -/
def hallNum (n : Nat) : HallId := ⟨n % 4, by omega⟩

/-- The word a read of a register returns (00 R11, R12): its applied copy, or what it shows of the unit behind it. -/
def State.regVal (s : State) (r : Reg) : W32 :=
  match r.kind with
  | .benDbgStatus => s.dbgStatus (benchOf r.u)
  | .benDbgPc => (s.bench (benchOf r.u)).core.pc.setWidth 32
  | .benDbgDataLo => (s.debugRead (benchOf r.u)).setWidth 32
  | .benDbgDataHi => (s.debugRead (benchOf r.u)).extractLsb' 32 32
  | .frgStatus => s.forgeStatus (benchOf r.u)
  | .frgPlateGeom => s.plateGeom (benchOf r.u)
  | .cruStatus => s.cruStatus (benchOf r.u)
  | .cruRowerrCnt => s.rowErrCnt (benchOf r.u)
  | .xltEpoch => s.xlat.epoch
  | .xltFteStat => s.fteStat
  | .hmkLotData => s.lot (s.fld .hmkLotSel 0 26 0)
  | .crtBStatus | .crtSStatus | .crtLStatus => s.carterStatus (carterOf r.kind r.u)
  | .hopStatus => s.hopperStatus (hopperOf r.u)
  | .belGrpData => Sp.get (fun _ => 0#32) s.belfry.groups (s.fld .belGrpSel 0 9 0)
  | .belCnt => s.bell (BitVec.ofNat 16 (s.fld .belCntSel 0 15 0))
  | .dryRtPri => s.route_ false (BitVec.ofNat 12 (s.fld .dryRtSel 0 11 0))
  | .dryRtAlt => s.route_ true (BitVec.ofNat 12 (s.fld .dryRtSel 0 11 0))
  | .alyQStatus => s.quarterStatus (hallNum r.u)
  | .shlSensData => s.sensData
  | .secState => if s.ready then s.reg r else setBits (s.reg r) 15 0 (Config.millis s.draws).toNat
  | _ => s.reg r

/-! ## Paths (16 R469) -/

/-- A word of a function's MSI-X table or pending-bit array (12 R390; PCI layout). -/
def State.msixWord (s : State) (f off : Nat) : W32 :=
  let e := Sp.get (fun _ => ({} : MsixEntry)) (s.fn f).msix (off / 16)
  if s.tableSize f ≤ off / 16 then 0
  else
    match off % 16 / 4 with
    | 0 => e.addr.setWidth 32
    | 1 => e.addr.extractLsb' 32 32
    | 2 => e.data
    | _ => if e.masked then 1 else 0
def State.pbaWord (s : State) (f off : Nat) : W32 :=
  BitVec.ofNat 32 ((List.range 32).foldl (fun n k => if (s.fn f).pba.contains (off / 4 * 32 + k) then n + 2 ^ k else n) 0)

/-- The word at an offset of the register space: 0 where nothing is (16 R466). The PF's MSI-X table and PBA lie near its end. -/
def State.spaceVal (s : State) (off : Nat) : W32 :=
  if 0x3F00000 ≤ off ∧ off < 0x3F08000 then s.msixWord 0 (off - 0x3F00000)
  else if 0x3F80000 ≤ off ∧ off < 0x3F80100 then s.pbaWord 0 (off - 0x3F80000)
  else
    match regAt (off / 4 * 4) with
    | some r => s.regVal r
    | none => 0

/-- A register of the tenant layout that function `f` reaches at offset `off` of its BAR2 (12 R378). -/
def State.tenantReg (s : State) (f : FnId) (off : Nat) : Option Reg :=
  let ring (lo cfg : List RegKind) (o : Nat) : Option Reg := ((lo ++ cfg)[o / 4]?).map fun k => ⟨k, f.val, 0⟩
  if off < 0x20 then ring [.xltFringBaseLo, .xltFringBaseHi] [.xltFringCfg, .xltFringHead, .xltFringTail] off
  else if 0x40 ≤ off ∧ off < 0x60 then ring [.pexEringBaseLo, .pexEringBaseHi] [.pexEringCfg, .pexEringHead, .pexEringTail] (off - 0x40)
  else if 0x1000 ≤ off ∧ off < 0x1800 then
    let n := (off - 0x1000) / 0x20
    if s.fld .fmnSlotStat n 31 28 ≠ 0 ∧ (s.ring ⟨s.fld .fmnSlotStat n 11 0 % 4096, by omega⟩).slotFn.toNat = f.val then
      ([RegKind.fmnSlotCtl, .fmnSlotStat][(off - 0x1000) % 0x20 / 4]?).map fun k => ⟨k, n, 0⟩
    else none
  else if 0x10000 ≤ off ∧ off < 0x30000 then
    let r := (off - 0x10000) / 0x20
    if s.fld .cthRingCfg r 29 24 = f.val then
      ([RegKind.cthRingBaseLo, .cthRingBaseHi, .cthRingCfg, .cthRingCqLo, .cthRingCqHi, .cthRingCqcfg, .cthRingFetch,
        .cthRingCqtail][(off - 0x10000) % 0x20 / 4]?).map fun k => ⟨k, r, 0⟩
    else none
  else none

/-- The block number of table 16.1 of an offset, for the device blocks. -/
def blockOf (off : Nat) : Nat := off / 0x100000

/-- The host reaches function `f`. -/
def State.reaches (s : State) (f : FnId) : Bool := !s.sheler.thermtrip && s.ready && s.fnVisible f

/-- The register that a path reaches at an offset, if any: the PF reaches SEC alone before READY (17 R484), the host nothing while a
thermal trip stands (15 R456), the sideband reaches MLD,
SEC, CLK, PWR and SHL, Master firmware the whole space, and a tenant function its layout. DEDUCED, log 118. -/
def State.pathReg (s : State) (p : RegPath) (off : Nat) : Option Reg :=
  let off := off / 4 * 4
  let host := !s.sheler.thermtrip
  let pf := if host && (s.ready || blockOf off == 1) then regAt off else none
  match p with
  | .pf => pf
  | .sideband => if blockOf off ≤ 4 then regAt off else none
  | .master b => if (s.bench b).core.running && (s.bench b).core.pl == 2 then regAt off else none
  | .fn f => if f.val = 0 then pf else if s.reaches f then s.tenantReg f off else none

/-- The word that tenant function `f` reads at offset `off` of its BAR2 (12 R378): FN and HMK of a ring read 0, and so does what it does not
own. -/
def State.tenantVal (s : State) (f : FnId) (off : Nat) : W32 :=
  if 0x30000 ≤ off ∧ off < 0x38000 then s.msixWord f.val (off - 0x30000)
  else if 0x38000 ≤ off ∧ off < 0x38100 then s.pbaWord f.val (off - 0x38000)
  else
    match s.tenantReg f (off / 4 * 4) with
    | some r => if r.kind = .cthRingCfg then s.regVal r &&& ~~~0x3F000FFF else s.regVal r
    | none => 0

/-- The aligned word that a read by a path returns: what a path does not reach reads 0. -/
def State.pathRead (s : State) (p : RegPath) (off : Nat) : W32 :=
  let pf := if !s.sheler.thermtrip && (s.ready || blockOf off == 1) then s.spaceVal off else 0
  match p with
  | .pf => pf
  | .sideband => if blockOf off ≤ 4 then s.spaceVal off else 0
  | .master _ => s.spaceVal off
  | .fn f => if f.val = 0 then pf else if s.reaches f then s.tenantVal f off else 0

/-- Bytes of registers that an access of Master level reads: each from the aligned word that contains it (16 R468). DEDUCED, log 114. -/
def State.masterBytes (s : State) (b : BenchId) (off n : Nat) : List Byte :=
  (List.range n).map fun k => BitVec.ofNat 8 ((s.pathRead (.master b) (off + k)).toNat / 2 ^ (8 * ((off + k) % 4)))

end Sys2Proof.Machine
end

