-- ==== Sys2Proof/Machine/RegWrite.lean ====
section
/-! DEFINITION. Writing registers (00 R11, R14; 16 R466-R481): writes by type code, the registers that act on a write, moulds and
POUR, posted writes, parity and assay. -/

namespace Sys2Proof.Machine

/-! ## Writes by type code (00 table 0.3) -/

/-- The bits of a register whose type satisfies `p`. -/
def Reg.mask (r : Reg) (p : FieldType → Bool) : W32 := maskOf p r.kind.fields

/-- A write of `v` to the fields of type `t` and to the W1C fields of a register. -/
def State.putFields (s : State) (t : FieldType) (r : Reg) (v : W32) : State :=
  let rw := r.mask (· == t)
  s.setReg r ((s.reg r &&& ~~~ rw ||| v &&& rw) &&& ~~~ (v &&& r.mask (· == .w1c)))

/-- A write of `v` clears the W1C fields of a register whose bits are 1. -/
def State.clearFlags (s : State) (r : Reg) (v : W32) : State := s.setReg r (s.reg r &&& ~~~ (v &&& r.mask (· == .w1c)))

/-- A write sets the moulds of a register, which no parity failure withholds any more (16 R471, R478). -/
def State.putMould (s : State) (r : Reg) (v : W32) : State :=
  let m := r.mask (· == .rwm)
  if m = 0 then s
  else { s with moulds := Sp.put s.moulds r.off (v &&& m), badMoulds := s.badMoulds.filter (· != r.off) }

/-- A write by type code alone: RW and W1C fields at once, moulds until the next POUR. -/
def State.plainWrite (s : State) (r : Reg) (v : W32) : State := (s.putFields .rw r v).putMould r v

/-- A write in which the fields of `fixed` keep their values. -/
def State.keepWrite (s : State) (r : Reg) (fixed : W32) (v : W32) : State :=
  s.putFields .rw r (v &&& ~~~ fixed ||| s.reg r &&& fixed)

/-- PROT.MODE and PFLT (16 R477). -/
def State.protWrite (s : State) (r : Reg) (v : W32) : State := s.putFields .rwa r v

/-! ## Moulds and POUR (16 R472, R473, table 16.2) -/

/-- The pour group of a moulded register. -/
def Reg.pourGroup (r : Reg) : Option Nat :=
  match r.kind with
  | .hmkOst => some 0
  | .xltHctBaseLo | .xltHctBaseHi => some 1
  | .ingCfg => some 2
  | .yrdSpread => some 3
  | .yrdGrpCfg => some (4 + r.u)
  | .dryId => some 12
  | .pexAwinCfg | .pexAwinOff | .pexAwinLen | .pexAwinLot => some (16 + r.u / 4)
  | _ => none

/-- The owning chapter's condition for applying mould `m` (13 R528; 14 DRY_ID). -/
def State.pourable (s : State) (r : Reg) (m : W32) : Bool :=
  match r.kind with
  | .ingCfg => bits (s.reg ⟨.ingStatus, 0, 0⟩) 15 0 == 0
  | .yrdGrpCfg => !s.groupUp r.u
  | .yrdSpread => (List.range 8).all fun g => !s.groupUp g || !((s.reg r ||| m).getLsbD (24 + g))
  | .dryId => (List.range 12).all fun p => s.portState p == 0
  | _ => true

/-- A field left unapplied sets its block's CFGERR, where it has one. -/
def State.cfgErr (s : State) (k : RegKind) : State :=
  match k with
  | .ingCfg => s.setFld .ingStatus 0 31 31 1
  | .yrdGrpCfg | .yrdSpread => s.setFld .yrdStatus 0 31 31 1
  | _ => s

/-- The mode of a free bench follows its HMK_OST bit at once (08 R242). -/
def State.followOst (s : State) (n : Nat) : State :=
  (List.range 32).foldl (fun s k =>
    let b := benchOf (32 * n + k)
    if (s.bench b).slot.isNone then s.updBench b fun x => { x with openStore := (s.reg ⟨.hmkOst, 0, n⟩).getLsbD k } else s) s

/-- An applied yard configuration that 13 R404, R409 or YRD_GRPg_CFG refuses sets CFGERR. -/
def State.yardCheck (s : State) : State :=
  if s.spreadUniform && (List.range 8).all s.grpValid then s else s.cfgErr .yrdSpread

/-- A POUR names the register: its mould is applied, or stays. -/
def State.pourReg (s : State) (r : Reg) (m : W32) : State :=
  if s.badMoulds.contains r.off then s
  else if !s.pourable r m then s.cfgErr r.kind
  else
    let rw := r.mask (· == .rwm)
    let s := { s.setReg r (s.reg r &&& ~~~ rw ||| m) with moulds := Sp.erase s.moulds r.off }
    match r.kind with
    | .hmkOst => s.followOst r.n
    | _ => s

/-- The register of a mould that a POUR of `mask` names. -/
def pourNames (mask : W32) (off : Nat) : Option Reg :=
  match regAt off with
  | none => none
  | some r =>
    match r.pourGroup with
    | some g => if mask.getLsbD g then some r else none
    | none => none

/-- A register of the yard's configuration. -/
def Reg.yard (r : Reg) : Bool := match r.kind with | .yrdGrpCfg | .yrdSpread => true | _ => false

/-- A write of a mask to MLD_POUR: every mould of the named groups that has changed is applied. What the yard's new configuration
amounts to is judged with every field applied. DEDUCED, log 115. -/
def State.pour (s : State) (mask : W32) : State :=
  let t := s.moulds.foldl (fun s x =>
    match pourNames mask x.1 with
    | some r => s.pourReg r x.2
    | none => s) s
  if s.moulds.any fun x => match pourNames mask x.1 with | some r => r.yard && s.pourable r x.2 | none => false then t.yardCheck else t

/-! ## Registers that act on a write -/

/-- PEX_FMAP (12 R374, R375, R391): LGO stays 1; the boundaries are fixed while it is 1; VVEC is written only while LGO and every VF
Enable are 0. -/
def State.fmapWrite (s : State) (v : W32) : State :=
  let r : Reg := ⟨.pexFmap, 0, 0⟩
  let lgo := s.fld .pexFmap 0 31 31 == 1
  let vf := (List.range 64).any fun f => (s.fn f).vfEnable
  let fixed := (if lgo then 0x807F7F7F#32 else 0) ||| (if lgo || vf then 0x03000000#32 else 0)
  s.keepWrite r fixed v

/-- A local ring's registers are fixed while its EN or LBUSY is 1 (10 R529). -/
def State.localFixed (s : State) (c : CarterId) : Bool := s.carterFld c 2 31 31 == 1 || s.carterFld c 3 24 24 == 1

/-- CRT_RING_CFG: EN, and the other fields unless they are fixed. -/
def State.localCfgWrite (s : State) (c : CarterId) (v : W32) : State :=
  let s := if s.localFixed c then s else s.keepWrite (carterReg c 2) 0x80000000 v
  if v.getLsbD 31 then s.localEnable c else s.localDisable c

/-- A quarter's ring registers are fixed while it is not off (14, 16 R481). -/
def State.quarterFixed (s : State) (q : HallId) : Bool :=
  s.fld .alyQRingCfg q.val 31 31 == 1 || s.fld .alyQStatus q.val 31 31 == 1 || s.fld .alyQStatus q.val 29 29 == 1
def State.quarterCfgWrite (s : State) (q : HallId) (v : W32) : State :=
  let s := if s.quarterFixed q then s else s.keepWrite ⟨.alyQRingCfg, q.val, 0⟩ 0x80000000 v
  if v.getLsbD 31 then s.quarterEnable q else s.quarterDisable q

/-- A hopper's registers are fixed while it is not off (10 R341). -/
def State.hopperFixed (s : State) (h : HopperId) : Bool := s.fld .hopStatus h.val 29 29 == 1 || s.fld .hopStatus h.val 31 31 == 1
def State.hopperCfgWrite (s : State) (h : HopperId) (v : W32) : State :=
  let s := if s.hopperFixed h then s else s.keepWrite ⟨.hopCfg, h.val, 0⟩ 0x80000000 v
  if v.getLsbD 31 then s.hopperEnable h else s.hopperDisable h

/-- A ring by number. -/
def ringNum (n : Nat) : RingId := ⟨n % 4096, by omega⟩

/-- A ring's base, size and completion queue are fixed while it is enabled or drains (12, 16 R481). -/
def State.ringFixed (s : State) (r : RingId) : Bool := s.fld .cthRingCfg r.val 31 30 != 0

/-- CTH_RINGn_CFG (12): FN and HMK are the PF's alone; RESUME ends a halt; EN. -/
def State.ringCfgWrite (s : State) (pf : Bool) (r : RingId) (v : W32) : State :=
  let fixed := (if s.ringFixed r then 0x80F00000#32 else 0x80000000#32) ||| (if pf then 0 else 0x3F000FFF#32)
  let s := s.keepWrite ⟨.cthRingCfg, r.val, 0⟩ fixed v
  let s := if v.getLsbD 18 then s.endHalt r else s
  if v.getLsbD 31 then s.ringEnable r else s.ringDisable r

/-- FMN_SLOTn_CTL (11). -/
def State.slotCtlWrite (s : State) (n : SlotId) (v : W32) : State :=
  let s := if v.getLsbD 31 then s.preempt n else s
  let s := if v.getLsbD 30 then s.slotAbort n else s
  let s := if v.getLsbD 29 then s.slotResume n else s
  if v.getLsbD 28 then s.slotNotice n else s

/-- BEN_DBG_CTL (02 R86). DEDUCED, log 140. DEDUCED, log 141. -/
def State.dbgCtlWrite (s : State) (b : BenchId) (v : W32) : State :=
  let s := s.keepWrite ⟨.benDbgCtl, b.val, 0⟩ 1 v
  let s := if v.getLsbD 0 then s.haltWrite b else s.haltClear b
  (if v.getLsbD 1 then s.stepWrite b else s).coreDeliver b

/-- PWR_CTL (15 R462). -/
def State.pwrCtlWrite (s : State) (v : W32) : State :=
  let s := s.plainWrite ⟨.pwrCtl, 0, 0⟩ v
  match bits v 31 30 with
  | 1 => s.leaveDoze
  | 2 => s.dozeRequest
  | _ => s

/-- SEC_MBOX_CMD (17 R497): GO starts a command unless one is running; a code that table 17.6 does not list ends with STATE. -/
def State.mboxWrite (s : State) (v : W32) : State :=
  let s := s.plainWrite ⟨.secMboxCmd, 0, 0⟩ v
  if !v.getLsbD 31 || s.fld .secMboxStat 0 31 31 == 1 then s
  else if 1 ≤ bits v 7 0 && bits v 7 0 ≤ 7 then
    { s.setFld .secMboxStat 0 31 31 1 with sec := { s.sec with started := some (bits v 7 0, bits v 11 8) } }
  else s.setFld .secMboxStat 0 3 0 6

/-- FMN_BRESET (17 R506). -/
def State.bresetWrite (s : State) (v : W32) : State :=
  let r : Reg := ⟨.fmnBreset, 0, 0⟩
  if v.getLsbD 31 then (s.clearFlags r v).benchResetGo (benchOf (bits v 7 0)) else s.plainWrite r v

/-- YRD_RELIEF_CTL (13 R421). -/
def State.reliefWrite (s : State) (v : W32) : State :=
  let g := bits v 18 16
  let c := bits v 12 8
  if v.getLsbD 31 && s.reliefRefused g c then s.reliefGo g c (bits v 7 0)
  else
    let s := s.plainWrite ⟨.yrdReliefCtl, 0, 0⟩ v
    if v.getLsbD 31 then s.reliefGo g c (bits v 7 0) else s

/-- FRG_SPARE_CTL (05 R186, R187). -/
def State.spareCtlWrite (s : State) (b : BenchId) (v : W32) : State :=
  let r : Reg := ⟨.frgSpareCtl, b.val, 0⟩
  if v.getLsbD 31 then (s.clearFlags r v).spareWrite b (v.getLsbD 15) (v.getLsbD 14) (v.setWidth 6) else s.plainWrite r v

/-- A write of `v` to a register of the bench windows. -/
def State.benchRegWrite (s : State) (r : Reg) (v : W32) : State :=
  let b := benchOf r.u
  match r.kind with
  | .benDbgCtl => s.dbgCtlWrite b v
  | .benDbgDataLo => s.debugWrite b false v
  | .benDbgDataHi => s.debugWrite b true v
  | .benXcmpLo | .benXcmpHi => (s.plainWrite r v).updCore b fun c => { c with countDone := false }
  | .benXjSp => (s.plainWrite r v).updCore b fun c => { c with jspHi := 0 }
  | .benXjSl => (s.plainWrite r v).updCore b fun c => { c with jslHi := 0 }
  | .benProt | .lthProt | .frgProt | .cruProt => s.protWrite r v
  | .frgSpareCtl => s.spareCtlWrite b v
  | .cruRchkCfg => let s := s.plainWrite r v; if v.getLsbD 31 then s.residueInject b else s
  | .cruRowerrCnt => if v.getLsbD 8 then s.rowCountClear b else s
  | _ => s.plainWrite r v

/-- A write of `v` to a register; `pf`: the PF or Sheler writes it, who may write FN and HMK of a ring (12 R378). DEDUCED, log 116. -/
def State.writeReg (s : State) (pf : Bool) (r : Reg) (v : W32) : State :=
  match r.kind with
  | .hmkLotData => s.post 10 r.off (v &&& r.mask (· == .rwp))
  | .yrdMarginCtl => s.post 14 r.off v
  | .shlSensSel | .shlFilt | .shlRuleLo | .shlRuleHi | .shlMargin | .shlTrip => s.post 4 r.off v
  | .crtBRingLo | .crtBRingHi | .crtSRingLo | .crtSRingHi | .crtLRingLo | .crtLRingHi =>
    if s.localFixed (carterOf r.kind r.u) then s else s.plainWrite r v
  | .crtBRingCfg | .crtSRingCfg | .crtLRingCfg => s.localCfgWrite (carterOf r.kind r.u) v
  | .crtBCtl | .crtSCtl | .crtLCtl =>
    let c := carterOf r.kind r.u
    if v.getLsbD 31 then s.carterEnable c else s.carterDisable c
  | .hopCfg => s.hopperCfgWrite (hopperOf r.u) v
  | .hopOwn | .hopSpillLo | .hopSpillHi => if s.hopperFixed (hopperOf r.u) then s else s.plainWrite r v
  | .belGrpData =>
    { s with belfry := { s.belfry with groups := Sp.put s.belfry.groups (s.fld .belGrpSel 0 9 0) (v &&& r.mask (· == .rw)) } }
  | .belCnt => s.bellCountSet v
  | .fmnSlotCtl => s.slotCtlWrite ⟨r.u % 64, by omega⟩ v
  | .fmnBenchCtl => if v.getLsbD 31 then s.benchEnable (benchOf r.u) else s.benchDisable (benchOf r.u)
  | .fmnBreset => s.bresetWrite v
  | .pexFmap => s.fmapWrite v
  | .pexFnCtl =>
    let f : FnId := ⟨r.u % 64, by omega⟩
    if v.getLsbD 31 then s.fnEnable f else s.fnDisable f
  | .cthRingBaseLo | .cthRingBaseHi | .cthRingCqLo | .cthRingCqHi => if s.ringFixed (ringNum r.u) then s else s.plainWrite r v
  | .cthRingCqcfg => s.keepWrite r (if s.ringFixed (ringNum r.u) then 0x000F0000 else 0) v
  | .cthRingCfg => s.ringCfgWrite pf (ringNum r.u) v
  | .yrdReliefCtl => s.reliefWrite v
  | .dryRtPri => s.routeWrite false (v &&& r.mask (· == .rw))
  | .dryRtAlt => s.routeWrite true (v &&& r.mask (· == .rw))
  | .dryPortCfg =>
    let s := s.keepWrite r 0x80000000 v
    let p : PortId := ⟨r.u % 12, by omega⟩
    if v.getLsbD 31 then s.portEnable p else s.portDisable p
  | .alyQRingLo | .alyQRingHi => if s.quarterFixed (hallNum r.u) then s else s.plainWrite r v
  | .alyQRingCfg => s.quarterCfgWrite (hallNum r.u) v
  | .pwrCtl => s.pwrCtlWrite v
  | .mldPour => s.pour v
  | .secMboxCmd => s.mboxWrite v
  | .blkProt => s.protWrite r v
  | _ => if 0x2000000 ≤ r.off then s.benchRegWrite r v else s.plainWrite r v

/-- A write to a word of an MSI-X table (12 R390, R391): the message, or the mask. -/
def State.msixWrite (s : State) (f : FnId) (off : Nat) (v : W32) : State :=
  let n := off / 16
  let upd (g : MsixEntry → MsixEntry) : State :=
    s.updFn f.val fun x => { x with msix := Sp.put x.msix n (g (Sp.get (fun _ => ({} : MsixEntry)) x.msix n)) }
  if s.tableSize f.val ≤ n then s
  else
    match off % 16 / 4 with
    | 0 => upd fun e => { e with addr := e.addr.extractLsb' 32 32 ++ v }
    | 1 => upd fun e => { e with addr := v ++ e.addr.setWidth 32 }
    | 2 => upd fun e => { e with data := v }
    | _ => if v.getLsbD 0 then upd fun e => { e with masked := true } else s.msixUnmask f n

/-- A function of the MSI-X table and offset that a path reaches. -/
def State.pathMsix (s : State) (p : RegPath) (off : Nat) : Option (FnId × Nat) :=
  let pf : Option (FnId × Nat) := if s.ready ∧ s.sheler.thermtrip = false ∧ 0x3F00000 ≤ off ∧ off < 0x3F08000 then some (0, off - 0x3F00000) else none
  match p with
  | .pf => pf
  | .master b => if (s.bench b).core.pl = 2 then pf else none
  | .sideband => none
  | .fn f =>
    if f.val = 0 then pf
    else if s.reaches f && decide (0x30000 ≤ off) && decide (off < 0x38000) then some (f, off - 0x30000) else none

/-- A 4-byte write by a path at an aligned offset of its layout. A request from the host ends Doze (15 R462). DEDUCED, log 85. -/
def State.pathWrite (s : State) (p : RegPath) (off : Nat) (v : W32) : State :=
  let s := match p with | .pf | .fn _ => s.leaveDoze | _ => s
  let pf : Bool := match p with | .pf => true | .fn f => f.val == 0 | _ => false
  if off % 4 ≠ 0 then s
  else
    match s.pathMsix p off with
    | some (f, o) => s.msixWrite f o v
    | none =>
      match s.pathReg p off with
      | some r => s.writeReg pf r v
      | none => s

/-- REGISTER_WRITE. -/
def execRegisterWrite (path : RegPath) (off : Nat) (v : W32) (s : State) : Host.Outcome State Fault Refusal :=
  act s (live fun s => s.pathWrite path off v)

/-- MLD_POUR. -/
def execMldPour (mask : W32) (s : State) : Host.Outcome State Fault Refusal := act s (live fun s => s.pour mask)

/-! ## Posted writes and slow pours (16 R475, R476) -/

/-- A posted write lands: BUSY clears, except for a margin point that has still to run (13 R424). -/
def postedWriteLand (blk : Nat) (s : State) : State :=
  match Sp.find s.posted blk with
  | none => s
  | some (off, v, lot) =>
    let s := { s with posted := Sp.erase s.posted blk }
    match blk with
    | 10 => { s.setBusy 10 0 with mem := { s.mem with lots := Sp.put s.mem.lots lot v } }
    | 14 =>
      let s := s.putFields .rwp ⟨.yrdMarginCtl, 0, 0⟩ v
      if v.getLsbD 31 then s.updServ fun x => { x with margin := true } else s.setBusy 14 0
    | _ =>
      match regAt off with
      | some r => (s.putFields .rwp r v).setBusy blk 0
      | none => s.setBusy blk 0

/-- POSTED_WRITE_LAND. -/
def execPostedWriteLand (blk : Nat) (s : State) : Host.Outcome State Fault Refusal := act s (live (postedWriteLand blk))

/-- POUR_FIELD_LAND: the application of a slow-domain field lands. Every field of table 16.2 lies in the C-clock domain, so that no
POUR leaves one waiting. -/
def execPourFieldLand (off : Nat) (s : State) : Host.Outcome State Fault Refusal :=
  act s (live fun s =>
    if s.pouring.contains off then
      let s := { s with pouring := s.pouring.filter (· != off) }
      s.setFld .mldStatus 0 31 31 (if s.pouring.isEmpty then 0 else 1)
    else s)

/-! ## Parity and assay (16 R477, R478) -/

/-- The block number and bench of a register-space offset (table 16.1). -/
def blockBench (off : Nat) : Nat × Nat :=
  if off < 0x2000000 then (off / 0x100000, 0) else (17 + off % 0x10000 / 0x4000, (off - 0x2000000) / 0x10000)

/-- The PROT register of a block (16 R467). -/
def protReg (blk bench : Nat) : Option Reg :=
  if blk < 17 then some ⟨.blkProt, blk, 0⟩
  else ([RegKind.benProt, .lthProt, .frgProt, .cruProt][blk - 17]?).map fun k => ⟨k, bench, 0⟩

/-- A Config parity fault of the register at `off`, in its mould or its applied copy. DEDUCED, log 117. -/
def State.parityFault (s : State) (p : Reg) (blk bench off : Nat) (mould : Bool) : State :=
  let s := (s.setReg p (setBits (s.reg p) 1 1 1)).satAdd .mldStatus 0 15 0 1
  let s := if mould then { s with badMoulds := off :: s.badMoulds.filter (· != off) } else s
  s.record { src := 0xA, event := 1, unit_ := BitVec.ofNat 16 (blk * 256 + bench)
             w2 := BitVec.ofNat 64 (if blk < 17 then off % 0x100000 else off % 0x4000), w3 := if mould then 1 else 0 }

/-- PARITY_SCRUB: a block in parity mode checks every register; `bad` are those whose parity fails, and whether in the mould. -/
def execParityScrub (blk : Nat) (bad : List (Nat × Bool)) (s : State) : Host.Outcome State Fault Refusal :=
  act s (live fun s => bad.foldl (fun s x =>
    match blockBench x.1 with
    | (k, b) =>
      match protReg k b, regAt x.1 with
      | some p, some _ => if k = blk && !(s.reg p).getLsbD 0 then s.parityFault p k b x.1 x.2 else s
      | _, _ => s) s)

/-- PROT_MODE_WRITE. -/
def execProtModeWrite (blk : Nat) (bench : BenchId) (mode : Bool) (s : State) : Host.Outcome State Fault Refusal :=
  act s (live fun s =>
    match protReg blk bench.val with
    | some p => s.setReg p (setBits (s.reg p) 0 0 (if mode then 1 else 0))
    | none => s)

/-- The bitwise majority of three words. -/
def majority (a b c : W32) : W32 := a &&& b ||| a &&& c ||| b &&& c

/-- The writable fields of a register, which assay holds three times. -/
def Reg.writable (r : Reg) : W32 := r.mask fun t => t == .rw || t == .rwm || t == .rwp || t == .rwa || t == .w1c

/-- What three copies of `v` give whose bits of `m` have flipped as `f` says. -/
def voted (f : Flip) (v m : W32) : W32 := majority (v ^^^ f.x &&& m) (v ^^^ f.y &&& m) (v ^^^ f.z &&& m)

/-- One vote on a register of the block whose PROT is `p`, or on its mould: the voted value goes back to all three copies, and a vote that
corrects one counts. -/
def State.vote (s : State) (p : Reg) (r : Reg) (f : Flip) : State :=
  let m := if f.mould then r.mask (· == .rwm) else r.writable
  if (f.x ||| f.y ||| f.z) &&& m = 0 then s
  else
    let s :=
      if f.mould then
        let v := Sp.get (fun _ => s.reg r &&& m) s.moulds r.off
        if voted f v m = v then s else { s with moulds := Sp.put s.moulds r.off (voted f v m) }
      else s.setReg r (voted f (s.reg r) m)
    s.setReg p (setBits (s.reg p) 31 16 (min 0xFFFF (bits (s.reg p) 31 16 + 1)))

/-- ASSAY_VOTE: a block in assay mode votes the copies that have flipped, and counts the votes that correct one. -/
def execAssayVote (blk : Nat) (bench : BenchId) (flips : List Flip) (s : State) :
    Host.Outcome State Fault Refusal :=
  act s (live fun s =>
    match protReg blk bench.val with
    | none => s
    | some p =>
      if !(s.reg p).getLsbD 0 then s
      else flips.foldl (fun s f =>
        match regAt f.off with
        | some r => if blockBench f.off = (blk, if blk < 17 then 0 else bench.val) then s.vote p r f else s
        | none => s) s)

/-! ## LDG and STG (02 R56; 16 R468, R469) -/

/-- The DVA lies on the register path of Master level. -/
def Core.onPath (c : Core) (ea : W64) : Bool := c.pl == 2 && decide (masterPath ≤ ea.toNat) && decide (ea.toNat < 2 ^ 52)

/-- The checks of a register access of Master level: misalignment and watchpoints (table 3.6). -/
def State.pathChecks (s : State) (b : BenchId) (ea : W64) (n : Nat) (r w : Bool) : Option Body :=
  if !(s.bench b).core.len && ea.toNat % n ≠ 0 then some (.raise s 3 { code := causeMisaligned, addr := ea })
  else
    match s.firstWatch b 1 r w 0 (accessParts ea n) with
    | some (k, d, m) => some (s.watchBody b m 3 d (infoOf k))
    | none => none

/-- LDG. -/
def ldgBody (b : BenchId) (f : FmtM) (s : State) : Body :=
  let c := (s.bench b).core
  let ea := c.ea f.ra f.off
  let n := sizeOf_ f.sz
  if c.onPath ea then
    match s.pathChecks b ea n true false with
    | some e => e
    | none =>
      let v := extendLoad n (f.sx == 1) (leVal (s.masterBytes b (ea.toNat % 0x4000000) n))
      let wait := Config.stallCycles s.draws
      .done (s.drawn.updCore b fun c => { c.wr f.rt v with cycle := c.cycle + wait }) (s.dvaCycles b 1 false) false
  else s.access b { kind := .load f.rt (f.sx == 1), ea, size := n, word := f.word 0x22 }

/-- STG. -/
def stgBody (b : BenchId) (f : FmtM) (s : State) : Body :=
  let c := (s.bench b).core
  let ea := c.ea f.ra f.off
  let n := sizeOf_ f.sz
  let v := c.rd f.rt
  if c.onPath ea then
    match s.pathChecks b ea n false true with
    | some e => e
    | none =>
      let off := ea.toNat % 0x4000000
      let s' :=
        if n = 4 && off % 4 == 0 then s.pathWrite (.master b) off (v.setWidth 32)
        else if n = 8 && off % 8 == 0 then (s.pathWrite (.master b) off (v.setWidth 32)).pathWrite (.master b) (off + 4) (v.extractLsb' 32 32)
        else s
      .done s' (s.dvaCycles b 1 false) false
  else s.access b { kind := .store v, ea, size := n, word := f.word 0x23 }

/-- LDG. -/
def execLdg (b : BenchId) (f : FmtM) (s : State) : Host.Outcome State Fault Refusal :=
  act s (issue b { word := f.word 0x22, regs := [f.rt, f.ra] } (ldgBody b f))

/-- STG; SX = 1 is illegal. -/
def execStg (b : BenchId) (f : FmtM) (s : State) : Host.Outcome State Fault Refusal :=
  act s (issue b { word := f.word 0x23, illegal := f.sx != 0, regs := [f.rt, f.ra] } (stgBody b f))

end Sys2Proof.Machine
end

