-- ==== Sys2Proof/Machine/Shake.lean ====
section
/-! DEFINITION. SHAKE256 (17 R489-R494, R501), as FIPS 202 defines it: the sponge of Keccak-f[1600] with a rate of 136 bytes and
the suffix 1111. -/

namespace Sys2Proof.Machine

/-- The round constants of Keccak-f[1600]. -/
def keccakRc : List W64 :=
  [0x0000000000000001, 0x0000000000008082, 0x800000000000808A, 0x8000000080008000, 0x000000000000808B, 0x0000000080000001,
   0x8000000080008081, 0x8000000000008009] ++
  [0x000000000000008A, 0x0000000000000088, 0x0000000080008009, 0x000000008000000A, 0x000000008000808B, 0x800000000000008B,
   0x8000000000008089, 0x8000000000008003] ++
  [0x8000000000008002, 0x8000000000000080, 0x000000000000800A, 0x800000008000000A, 0x8000000080008081, 0x8000000000008080,
   0x0000000080000001, 0x8000000080008008]

/-- Rotation counts of the 25 lanes, lane (x, y) at 5 y + x. -/
def keccakRot : List Nat :=
  [0, 1, 62, 28, 27, 36, 44, 6, 55, 20, 3, 10, 43] ++ [25, 39, 41, 45, 15, 21, 8, 18, 2, 61, 56, 14]

/-- One round on 25 lanes. -/
def keccakRound (a : List W64) (rc : W64) : List W64 :=
  let at_ (l : List W64) (i : Nat) : W64 := l.getD i 0
  let c := (List.range 5).map fun x => at_ a x ^^^ at_ a (x + 5) ^^^ at_ a (x + 10) ^^^ at_ a (x + 15) ^^^ at_ a (x + 20)
  let d := (List.range 5).map fun x => at_ c ((x + 4) % 5) ^^^ (at_ c ((x + 1) % 5)).rotateLeft 1
  let t := (List.range 25).map fun i => (at_ a i ^^^ at_ d (i % 5)).rotateLeft (keccakRot.getD i 0)
  -- lane (x, y) moves to (y, 2x + 3y): the lane at (x', y') comes from x = (x' + 3y') mod 5, y = x'
  let b := (List.range 25).map fun i => at_ t (5 * (i % 5) + (i % 5 + 3 * (i / 5)) % 5)
  let e := (List.range 25).map fun i => at_ b i ^^^ (~~~ at_ b (i / 5 * 5 + (i + 1) % 5 % 5) &&& at_ b (i / 5 * 5 + (i + 2) % 5 % 5))
  match e with
  | h :: r => (h ^^^ rc) :: r
  | [] => []

/-- Keccak-f[1600]. -/
def keccak (a : List W64) : List W64 := keccakRc.foldl keccakRound a

/-- Bytes of a lane and of the state, low byte first. -/
def laneBytes (w : W64) : List Byte := (List.range 8).map fun k => w.extractLsb' (8 * k) 8

/-- Exclusive-or of a block of 136 bytes into the state. -/
def keccakXor (a : List W64) (blk : List Byte) : List W64 :=
  (List.range 25).map fun i =>
    a.getD i 0 ^^^ if i < 17 then (List.range 8).foldl (fun w k => w ||| ((blk.getD (8 * i + k) 0).setWidth 64 <<< (8 * k))) 0 else 0

/-- Absorbs `n` whole blocks. -/
def keccakAbsorb : Nat → List Byte → List W64 → List W64
  | 0, _, a => a
  | n + 1, d, a => keccakAbsorb n (d.drop 136) (keccak (keccakXor a (d.take 136)))

/-- Output of `n` more blocks. -/
def keccakSqueeze : Nat → List W64 → List Byte
  | 0, _ => []
  | n + 1, a => (a.take 17).flatMap laneBytes ++ keccakSqueeze n (keccak a)

/-- The message padded with 0x1F, zeros and the last bit of the last block. -/
def shakePad (d : List Byte) : List Byte :=
  let r := 136 - d.length % 136
  if r = 1 then d ++ [0x9F] else d ++ 0x1F :: List.replicate (r - 2) 0 ++ [0x80]

/-- SHAKE256 with `n` bytes of output. DESIGN CHOICE, log 130. -/
def shake256 (d : List Byte) (n : Nat) : List Byte :=
  let p := shakePad d
  (keccakSqueeze ((n + 135) / 136) (keccakAbsorb (p.length / 136) p (List.replicate 25 0))).take n

end Sys2Proof.Machine
end

