-- ==== Sys2Proof/Machine/Start.lean ====
section
/-! DEFINITION. Resets and power (17 R482, R483; 01 R25), start-up, the part record, images, the mailbox and the sideband (17
R484-R503). -/

namespace Sys2Proof.Machine

/-! ## Resets (17 table 17.1) -/

/-- The state after a reset of everything: what the surroundings hold, and the model's own record of them, stays; every bench draws its
secret anew (03 R97). DESIGN CHOICE, log 17. -/
def State.powerOn (s : State) : State :=
  { State.reset with
    pending := s.pending, draws := s.draws + 1, keyDraw := s.draws, out := s.out
    mem := { State.reset.mem with host := s.mem.host, peer := s.mem.peer } }

/-- A device reset keeps SHL_TRIP and a pending TRIP_SEEN record. -/
def State.deviceReset (s : State) : State :=
  let t := s.powerOn.setReg ⟨.shlTrip, 0, 0⟩ (s.reg ⟨.shlTrip, 0, 0⟩)
  { t with sheler := { t.sheler with tripSeen := s.sheler.tripSeen } }

/-- POWER_ON: VDD_AON is applied. -/
def execPowerOn (s : State) : Host.Outcome State Fault Refusal := .next s.powerOn

/-- POWER_OFF: VDD_AON is lost, and the device holds no state. -/
def execPowerOff (s : State) : Host.Outcome State Fault Refusal := .next s.powerOn

/-- PERST_ASSERT: a device reset. -/
def execPerstAssert (s : State) : Host.Outcome State Fault Refusal := .next s.deviceReset

/-- PERST_RELEASE: the straps are sampled, and Sheler presents the minimal endpoint and waits for the part record (R483, R484; 18 R521).
The JTAG instructions that act only under PERST_N act as BYPASS from now on (18 R523). -/
def State.perstRelease (s : State) (x : Straps) : State :=
  let s := { s with sec := { s.sec with perst := false, straps := x, jtag := if 3 ≤ s.sec.jtag.toNat then 0 else s.sec.jtag } }
  (s.setFld .pwrGov 0 31 29 x.slewset.toNat).setFld .secState 0 31 28 1

/-- PERST_RELEASE. -/
def execPerstRelease (straps : Straps) (s : State) : Host.Outcome State Fault Refusal :=
  act s fun s => if s.sec.perst then s.perstRelease straps else s

/-! ## The mailbox (17 R497, tables 17.6 and 17.7) -/

def msOk : Nat := 0
def msFormat : Nat := 1
def msRoot : Nat := 2
def msBadSig : Nat := 3
def msBadDigest : Nat := 4
def msRollback : Nat := 5
def msState : Nat := 6
def msNoBme : Nat := 7
def msDma : Nat := 8

/-- SEC_STATE.PHASE. -/
def State.phase (s : State) : Nat := s.fld .secState 0 31 28

/-- The runtime had started and its watchdog has stopped it: the mask ROM serves the mailbox (R503). DEDUCED, log 121. -/
def State.runtimeStopped (s : State) : Bool := !s.sec.runtime && (Sp.find s.sec.current 1).isSome

/-- Command `code` of KIND `kind` is allowed now (table 17.6). -/
def State.allowed (s : State) (code kind : Nat) : Bool :=
  if s.runtimeStopped then code == 2 && kind == 1
  else
    match code with
    | 1 => s.phase == 1
    | 2 => s.ready || (s.phase == 2 && kind == 1) || (s.phase == 3 && (kind == 2 || kind == 3))
    | 3 => s.ready && (Sp.find s.sec.staged kind).isSome
    | 4 | 6 => s.fld .secState 0 27 27 == 1
    | 5 => true
    | 7 => s.phase == 1 || s.phase == 2
    | _ => false

/-- The mailbox command ends with a status. -/
def State.mboxEnd (s : State) (status : Nat) : State :=
  { (s.setFld .secMboxStat 0 31 31 0).setFld .secMboxStat 0 3 0 status with sec := { s.sec with started := none } }

/-- Sheler performs mailbox command `code`, which the host has started, or starts with this command (R497, R498). `fail`: a host access
of it fails. DEDUCED, log 119. DESIGN CHOICE, log 120. -/
def mailbox (code kind : Nat) (fail : Bool) (f : State → State × Nat) (s : State) : State :=
  let busy := s.fld .secMboxStat 0 31 31 == 1
  if busy && s.sec.started != some (code, kind) then s
  else
    let s := if busy then s else (s.setFld .secMboxCmd 0 7 0 code).setFld .secMboxCmd 0 11 8 kind
    if !s.allowed code kind then s.mboxEnd msState
    else if !(s.fn 0).busMaster then s.mboxEnd msNoBme
    else if fail then s.mboxEnd msDma
    else
      match f s with
      | (s, status) => s.mboxEnd status

/-- The KIND that a mailbox command of another kind carries: that of SEC_MBOX_CMD. -/
def State.mboxKind (s : State) : Nat :=
  match s.sec.started with
  | some (_, k) => k
  | none => s.fld .secMboxCmd 0 11 8

/-- A result goes to the buffer, and its length to word 2 of the request page; a buffer too small fails. DEDUCED, log 125. -/
def State.mboxResult (s : State) (m : Mbox) (d : List Byte) : State × Nat :=
  if m.cap < d.length then (s, msDma)
  else
    let page := s.fld .secMboxAddrHi 0 19 0 * 0x100000000 + s.fld .secMboxAddrLo 0 31 12 * 4096
    ((s.ownPut 0 m.obj d).ownPut 0 (page + 16) (leBytes 8 d.length), msOk)

/-! ## The part record (17 R488-R491) -/

/-- `n` bytes of a blob at an offset, and the little-endian value of them. -/
def field (d : List Byte) (off n : Nat) : List Byte := (d.drop off).take n
def fieldVal (d : List Byte) (off n : Nat) : Nat := leVal (field d off n)

/-- A record of table 17.3 that is well formed: its entries, the signed bytes and the signature. -/
def parseRecord (d : List Byte) : Option (List (BitVec 128) × List Byte × List Byte) :=
  let n := fieldVal d 4 4
  let len := 0x1008 + 16 * n
  let sl := fieldVal d len 2
  if fieldVal d 0 4 ≠ 0x50524543 ∨ 4096 < n ∨ 1280 < sl ∨ d.length ≠ len + 2 + sl then none
  else
    some ((List.range n).map (fun k => BitVec.ofNat 128 (fieldVal d (0x1008 + 16 * k) 16)), d.take len, field d (len + 2) sl)

/-- PUT_RECORD: the record is fetched; without one, Sheler enrols (R488, R489). -/
def State.putRecord (s : State) (d : List Byte) : State × Nat :=
  if d.isEmpty then
    let helper := Config.helperData s.draws
    (({ s with sec := { s.sec with helper, entries := [], unverified := none, fetched := true } }.drawn.setFld .secState 0 25 25 1).setFld
      .secState 0 31 28 2, msOk)
  else
    match parseRecord d with
    | none => (s, msFormat)
    | some (entries, msg, sig) =>
      ({ s with sec := { s.sec with helper := field d 8 4096, entries, unverified := some (msg, sig), fetched := true } }.setFld
        .secState 0 31 28 2, msOk)

/-- PUT_RECORD. -/
def execPutRecord (m : Mbox) (data : List Byte) (s : State) : Host.Outcome State Fault Refusal :=
  act s (watching fun s => mailbox 1 s.mboxKind m.fail (fun s => s.putRecord data) s)

/-- Measurement `k`: KIND 1 to 3, and 4 for the part record (R494). -/
def State.measurement (s : State) (k : Nat) : List Byte := Sp.get (fun _ => List.replicate 64 0) s.sec.meas k

/-- Measurement `k` is extended by what `msg` digests to. -/
def State.extend (s : State) (k : Nat) (msg : List Byte) : State :=
  { s with sec := { s.sec with meas := Sp.put s.sec.meas k (shake256 (s.measurement k ++ shake256 msg 64) 64) } }

/-- Sheler verifies the record's signature: it applies no entry of one that fails; entries of unlisted types are skipped (R490).
DEDUCED, log 122. DEDUCED, log 123. -/
def State.verifyRecord (s : State) : State :=
  match s.sec.unverified with
  | none => s
  | some (msg, sig) =>
    let s := { s with sec := { s.sec with unverified := none } }
    if Config.falconVerify (Config.falconPublic s.sec.seed) (shake256 msg 64) sig then
      let odd := s.sec.entries.filter fun e => entryBits e 7 0 == 0 || decide (4 < entryBits e 7 0)
      (s.extend 4 msg).satAdd .secState 0 19 16 odd.length
    else { s with sec := { s.sec with entries := [] } }.setFld .secState 0 26 26 1

/-- IDENTITY_KEY_DERIVED: the seed, and with it the identity key, exists, and the record is verified (R489, R490). -/
def identityKeyDerived (s : State) : State :=
  if !s.sec.fetched || s.fld .secState 0 27 27 == 1 then s
  else
    ({ s with sec := { s.sec with seed := shake256 (Config.correctedBits s.sec.helper) 64 } }.setFld .secState 0 27 27 1).verifyRecord

/-- IDENTITY_KEY_DERIVED. -/
def execIdentityKeyDerived (s : State) : Host.Outcome State Fault Refusal := act s (watching identityKeyDerived)

/-- The current record, signed afresh (R491). -/
def State.currentRecord (s : State) : State × List Byte :=
  let msg := leBytes 4 0x50524543 ++ leBytes 4 s.sec.entries.length ++ s.sec.helper ++ s.sec.entries.flatMap fun e => leBytes 16 e.toNat
  let sig := Config.falconSign s.sec.seed (shake256 msg 64) s.draws
  (s.drawn, msg ++ leBytes 2 sig.length ++ sig)

/-- GET_RECORD. -/
def execGetRecord (m : Mbox) (s : State) : Host.Outcome State Fault Refusal :=
  act s (watching fun s => mailbox 4 s.mboxKind m.fail (fun s =>
    match s.currentRecord with
    | (s, d) => s.mboxResult m d) s)

/-! ## Images (17 R492, R493) -/

/-- Some byte of a range is not 0. -/
def nonZero (d : List Byte) (off n : Nat) : Bool := (field d off n).any (· != 0)

/-- Check 1 of R493: the header of table 17.5, for the KIND that the command names. -/
def imageFormat (d : List Byte) (kind : Nat) : Bool :=
  let len := fieldVal d 0x10 8
  let entry := fieldVal d 0x18 8
  fieldVal d 0 4 == 0x494D4745 && fieldVal d 4 2 == kind && decide (1 ≤ kind) && decide (kind ≤ 3) && fieldVal d 6 2 == 1
    && d.length == 4096 + len && decide (fieldVal d 0x800 2 ≤ 1280)
    && (match kind with
        | 1 => decide (len ≤ 0x400000)
        | 2 => decide (len ≤ 0x10000) && len % 8 == 0 && entry < 2 ^ 60
        | _ => decide (len ≤ 0x800000) && entry == 0)
    && !(nonZero d 0xC 4 || nonZero d 0x20 96 || nonZero d 0x7C1 63 || nonZero d 0xD02 766)

/-- The running image of a KIND has a higher security version (check 5). -/
def State.rollsBack (s : State) (kind svn : Nat) : Bool :=
  match Sp.find s.sec.current kind with
  | some i => decide (svn < i.svn.toNat)
  | none => false

/-- The first check of R493 that fails, or OK. -/
def State.imageStatus (s : State) (d : List Byte) (kind : Nat) : Nat :=
  if !imageFormat d kind then msFormat
  else if shake256 (field d 0xC0 1793) 64 ≠ Config.rootDigest then msRoot
  else if !Config.falconVerify (field d 0xC0 1793) (shake256 (d.take 0x800) 64) (field d 0x802 (fieldVal d 0x800 2)) then msBadSig
  else if field d 0x80 64 ≠ shake256 (d.drop 4096) 64 then msBadDigest
  else if s.ready && s.rollsBack kind (fieldVal d 8 4) then msRollback
  else msOk

/-- An accepted image. -/
def imageOf (d : List Byte) : Image :=
  { svn := BitVec.ofNat 32 (fieldVal d 8 4), entry := BitVec.ofNat 64 (fieldVal d 0x18 8), payload := d.drop 4096, header := d.take 0x800 }

/-- FMN_FWEND follows the current bench firmware (R496). -/
def State.setFwend (s : State) : State :=
  match Sp.find s.sec.current 2 with
  | some i => s.setFld .fmnFwend 0 15 0 ((i.payload.length / 8 + 1023) / 1024 * 1024)
  | none => s

/-- Start-up leaves PHASE 2 when the runtime runs and a configuration list has been applied: the root PLL locks (table 17.2). -/
def State.leaveRuntime (s : State) : State :=
  if s.phase = 2 && s.sec.runtime && s.sec.configured then s.rootLock.setFld .secState 0 31 28 4 else s

/-- Sheler's records that waited for a runtime are written (R503). -/
def State.flushWaiting (s : State) : State :=
  s.sheler.waitRecs.foldl State.shelWrite { s with sheler := { s.sheler with waitRecs := [] } }

/-- Step 6 of start-up ends with both firmware images: ports whose EN is set train (table 17.2). -/
def State.leaveFirmware (s : State) : State :=
  if s.phase = 3 && s.firmwareIn then
    (List.range 12).foldl (fun s p => if s.fld .dryPortCfg p 31 31 = 1 then s.setPortState p 1 else s) (s.setFld .secState 0 31 28 4)
  else s

/-- An image becomes the current one of its KIND, and its measurement is extended. DESIGN CHOICE, log 124. -/
def State.adopt (s : State) (kind : Nat) (i : Image) : State :=
  let s := ({ s with sec := { s.sec with current := Sp.put s.sec.current kind i } }.extend kind i.header).setFwend
  if kind = 1 then ({ s with sec := { s.sec with runtime := true } }).flushWaiting.leaveRuntime else s.leaveFirmware

/-- PUT_IMAGE: before READY, and for a stopped runtime, the image becomes current; at READY it is staged (R502, R503). -/
def State.acceptImage (s : State) (kind : Nat) (d : List Byte) : State × Nat :=
  let status := s.imageStatus d kind
  if status ≠ msOk then (s, status)
  else if s.ready && !s.runtimeStopped then ({ s with sec := { s.sec with staged := Sp.put s.sec.staged kind (imageOf d) } }, msOk)
  else (s.adopt kind (imageOf d), msOk)

/-- PUT_IMAGE. -/
def execPutImage (m : Mbox) (kind : BitVec 4) (image : List Byte) (s : State) : Host.Outcome State Fault Refusal :=
  act s (watching (mailbox 2 kind.toNat m.fail fun s => s.acceptImage kind.toNat image))

/-- ACTIVATE: the staged image of a KIND becomes the current one (R502). -/
def State.activate (s : State) (kind : Nat) : State × Nat :=
  match Sp.find s.sec.staged kind with
  | none => (s, msState)
  | some i =>
    let s := { s with sec := { s.sec with staged := Sp.erase s.sec.staged kind } }.adopt kind i
    (s.shelRec 0x12 0xFFFF kind i.svn.toNat, msOk)

/-- ACTIVATE. -/
def execActivate (kind : BitVec 4) (s : State) : Host.Outcome State Fault Refusal :=
  act s (watching (mailbox 3 kind.toNat false fun s => s.activate kind.toNat))

/-! ## Measurements and attestation (17 R497, R501) -/

/-- The four measurements and the three SVNs; a KIND without an image has SVN 0. -/
def State.measBytes (s : State) : List Byte :=
  [1, 2, 3, 4].flatMap s.measurement ++ [1, 2, 3].flatMap fun k =>
    leBytes 4 (match Sp.find s.sec.current k with | some i => i.svn.toNat | none => 0)

/-- The attestation response for a nonce. -/
def State.attestBytes (s : State) (nonce : List Byte) : State × List Byte :=
  let d := nonce ++ leBytes 4 (s.regVal ⟨.secIdent, 0, 0⟩).toNat ++ s.measBytes ++ leBytes 4 (s.regVal ⟨.secState, 0, 0⟩).toNat
  let s := s.drawn
  (s.drawn, d ++ Config.falconSign s.sec.seed (shake256 d 64) s.draws)

/-- GET_MEAS. -/
def execGetMeas (m : Mbox) (s : State) : Host.Outcome State Fault Refusal :=
  act s (watching fun s => mailbox 5 s.mboxKind m.fail (fun s => s.mboxResult m s.measBytes) s)

/-- ATTEST. -/
def execAttest (m : Mbox) (nonce : List Byte) (s : State) : Host.Outcome State Fault Refusal :=
  act s (watching fun s => mailbox 6 s.mboxKind m.fail (fun s =>
    match s.attestBytes nonce with
    | (s, d) => s.mboxResult m d) s)

/-! ## The configuration list (17 R499) -/

/-- The entries of a list of table 17.11 that passes every check: each names a register of a block other than MLD, SEC and the bench
windows. DEDUCED, log 126. -/
def parseConfig (d : List Byte) : Option (List (Reg × W32)) :=
  let n := fieldVal d 4 4
  if fieldVal d 0 4 ≠ 0x43464731 ∨ 4096 < n ∨ d.length < 8 + 8 * n then none
  else
    (List.range n).mapM fun k =>
      let off := fieldVal d (12 + 8 * k) 4
      if blockOf off < 2 ∨ 17 ≤ blockOf off ∨ off % 4 ≠ 0 then none
      else (regAt off).map fun r => (r, BitVec.ofNat 32 (fieldVal d (8 + 8 * k) 4))

/-- One entry is written; a posted write has landed before the next. -/
def State.configEntry (s : State) (e : Reg × W32) : State :=
  let s := s.writeReg true e.1 e.2
  if (Sp.find s.posted (blockOf e.1.off)).isSome then postedWriteLand (blockOf e.1.off) s else s

/-- PUT_CONFIG: the entries of an accepted list in order, then a POUR of every group. -/
def State.putConfig (s : State) (d : List Byte) : State × Nat :=
  match parseConfig d with
  | none => (s, msFormat)
  | some l =>
    let s := (l.foldl State.configEntry s).pour 0xFFFFFFFF
    ({ s with sec := { s.sec with configured := true } }.leaveRuntime, msOk)

/-- PUT_CONFIG. -/
def execPutConfig (m : Mbox) (data : List Byte) (s : State) : Host.Outcome State Fault Refusal :=
  act s (watching fun s => mailbox 7 s.mboxKind m.fail (fun s => s.putConfig data) s)

/-! ## Bring-up (17 R485-R487, R504) -/

/-- BENCH_SELF_TEST: step 7b, once the record is verified (R490). A bench without findings is tested against the part record alone. -/
def benchSelfTest (ts : List SelfTest) (s : State) : State :=
  if s.phase ≠ 4 || !s.firmwareIn || s.sec.tested || s.sec.unverified.isSome then s
  else
    let s := (List.finRange 256).foldl (fun s b => (s.selfTest ((ts.find? fun t => t.bench == b).getD { bench := b })).1) s
    { s with sec := { s.sec with tested := true } }

/-- BENCH_SELF_TEST. -/
def execBenchSelfTest (ts : List SelfTest) (s : State) : Host.Outcome State Fault Refusal := act s (clocked (benchSelfTest ts))

/-- The device becomes READY: the records held are written in order, and a TRIP_SEEN that is due after them (R487; 15 table 15.6).
DEDUCED, log 127. -/
def State.becomeReady (s : State) : State :=
  let held := s.heldRecs
  let s := ((s.setFld .secState 0 31 28 5).setFld .secState 0 15 0 (Config.millis s.draws).toNat).drawn
  let s := held.foldl (fun s r => if r.src = 7 then s.shelSend r else s.record r) { s with heldRecs := [] }
  match s.sheler.tripSeen with
  | none => s
  | some (sensor, temp) => (s.updSheler fun x => { x with tripSeen := none }).shelRec 6 0xFFFF sensor.toNat temp.toNat

/-- READY: every step of start-up is over. -/
def execReady (s : State) : Host.Outcome State Fault Refusal :=
  act s (clocked fun s =>
    if s.phase = 4 && s.firmwareIn && s.sec.tested && s.yardDone && s.sec.unverified.isNone && s.fld .secState 0 27 27 == 1 then s.becomeReady else s)

/-- RUNTIME_WATCHDOG: the runtime is stopped, and its record waits for the next one (R503). -/
def execRuntimeWatchdog (s : State) : Host.Outcome State Fault Refusal :=
  act s (watching fun s =>
    if s.sec.runtime then
      ({ s with sec := { s.sec with runtime := false } }.setFld .secState 0 24 24 1).shelRec 0x13 0xFFFF 0 0
    else s)

/-! ## The sideband (17 R500) -/

/-- What a sideband request returns. -/
def State.tell (s : State) (d : List Byte) : State := s.emit (.reply d)

/-- REG_READ: a register of MLD, SEC, CLK, PWR or SHL. -/
def execRegRead (off : Nat) (s : State) : Host.Outcome State Fault Refusal :=
  act s (live fun s => (s.tell (leBytes 4 (s.pathRead .sideband off).toNat)).drawn)

/-- REG_WRITE. -/
def execRegWrite (off : Nat) (v : W32) (s : State) : Host.Outcome State Fault Refusal := act s (live fun s => s.pathWrite .sideband off v)

/-- GET_STATE: SEC_STATE. -/
def execGetState (s : State) : Host.Outcome State Fault Refusal :=
  act s (live fun s => (s.tell (leBytes 4 (s.regVal ⟨.secState, 0, 0⟩).toNat)).drawn)

/-- SB_GET_MEAS. -/
def execSbGetMeas (s : State) : Host.Outcome State Fault Refusal := act s (live fun s => s.tell s.measBytes)

/-- SB_ATTEST: without an identity key, the status STATE of its mailbox form. DEDUCED, log 129. -/
def execSbAttest (nonce : List Byte) (s : State) : Host.Outcome State Fault Refusal :=
  act s (live fun s =>
    if s.fld .secState 0 27 27 = 1 then
      match s.attestBytes nonce with
      | (s, d) => s.tell d
    else s.tell [BitVec.ofNat 8 msState])

end Sys2Proof.Machine
end

