-- ==== Sys2Proof/Machine/Pins.lean ====
section
/-! DEFINITION. Rails, the SMBus alert and the test access port (18 R513, R520, R522, R523). -/

namespace Sys2Proof.Machine

/-- RAIL_DEPARTURE: no rule binds the device until the next device reset (R513). -/
def execRailDeparture (s : State) : Host.Outcome State Fault Refusal := act s fun s => { s with departed := true }

/-- ALERT_N is asserted while a notice has not been collected; under I3C Basic it stays deasserted (R520). -/
def State.alertAsserted (s : State) : Bool := s.sec.straps.sbmode == 0 && s.sheler.notices != 0

/-- ALERT_RESPONSE: an SMBus Alert Response read collects the notices. Under I3C Basic there is none (R520). -/
def execAlertResponse (s : State) : Host.Outcome State Fault Refusal :=
  act s fun s => if s.sec.straps.sbmode = 0 then s.updSheler fun x => { x with notices := 0 } else s

/-! ## JTAG (R522, R523): instructions 0 BYPASS, 1 IDCODE, 2 SAMPLE/PRELOAD, 3 EXTEST, 4 EXTEST_PULSE, 5 EXTEST_TRAIN, 6 CLAMP, 7
HIGHZ, in the model's numbering; the manual gives no codes. -/

/-- Instruction `i` is loaded; one that acts only while PERST_N is asserted is BYPASS at other times. DESIGN CHOICE, log 131. -/
def State.jtag (s : State) (i : BitVec 4) : State :=
  { s with sec := { s.sec with jtag := if 3 ≤ i.toNat && !s.sec.perst then 0 else i } }

/-- BYPASS. -/
def execBypass (s : State) : Host.Outcome State Fault Refusal := act s fun s => s.jtag 0
/-- IDCODE reads 0x1025_669B. -/
def execIdcode (s : State) : Host.Outcome State Fault Refusal := act s fun s => (s.jtag 1).emit (.tdo 1 0x1025669B)
/-- SAMPLE/PRELOAD. -/
def execSamplePreload (s : State) : Host.Outcome State Fault Refusal := act s fun s => s.jtag 2
/-- EXTEST. -/
def execExtest (s : State) : Host.Outcome State Fault Refusal := act s fun s => s.jtag 3
/-- EXTEST_PULSE. -/
def execExtestPulse (s : State) : Host.Outcome State Fault Refusal := act s fun s => s.jtag 4
/-- EXTEST_TRAIN. -/
def execExtestTrain (s : State) : Host.Outcome State Fault Refusal := act s fun s => s.jtag 5
/-- CLAMP. -/
def execClamp (s : State) : Host.Outcome State Fault Refusal := act s fun s => s.jtag 6
/-- HIGHZ. -/
def execHighz (s : State) : Host.Outcome State Fault Refusal := act s fun s => s.jtag 7

end Sys2Proof.Machine
end

