-- ==== Sys2Proof/Machine/Dispatch.lean ====
section
/-! DEFINITION. exec: one arm for each command, each one call of its meaning. -/

namespace Sys2Proof.Machine

/-- The effect of a command on everything but the queue of waiting commands. -/
def exec (i : Instr) (s : State) : Host.Outcome State Fault Refusal :=
  match i with
  | .add b f => Sys2Proof.Machine.execAdd b f s
  | .sub b f => Sys2Proof.Machine.execSub b f s
  | .adc b f => Sys2Proof.Machine.execAdc b f s
  | .sbc b f => Sys2Proof.Machine.execSbc b f s
  | .and b f => Sys2Proof.Machine.execAnd b f s
  | .or b f => Sys2Proof.Machine.execOr b f s
  | .xor b f => Sys2Proof.Machine.execXor b f s
  | .andn b f => Sys2Proof.Machine.execAndn b f s
  | .sll b f => Sys2Proof.Machine.execSll b f s
  | .srl b f => Sys2Proof.Machine.execSrl b f s
  | .sra b f => Sys2Proof.Machine.execSra b f s
  | .ror b f => Sys2Proof.Machine.execRor b f s
  | .min b f => Sys2Proof.Machine.execMin b f s
  | .max b f => Sys2Proof.Machine.execMax b f s
  | .minu b f => Sys2Proof.Machine.execMinu b f s
  | .maxu b f => Sys2Proof.Machine.execMaxu b f s
  | .clz b f => Sys2Proof.Machine.execClz b f s
  | .popc b f => Sys2Proof.Machine.execPopc b f s
  | .addi b f => Sys2Proof.Machine.execAddi b f s
  | .andi b f => Sys2Proof.Machine.execAndi b f s
  | .ori b f => Sys2Proof.Machine.execOri b f s
  | .xori b f => Sys2Proof.Machine.execXori b f s
  | .shi b f => Sys2Proof.Machine.execShi b f s
  | .cmpi b f => Sys2Proof.Machine.execCmpi b f s
  | .li b f => Sys2Proof.Machine.execLi b f s
  | .lih b f => Sys2Proof.Machine.execLih b f s
  | .addl b f => Sys2Proof.Machine.execAddl b f s
  | .mul b f => Sys2Proof.Machine.execMul b f s
  | .mulhu b f => Sys2Proof.Machine.execMulhu b f s
  | .mulhs b f => Sys2Proof.Machine.execMulhs b f s
  | .divu b f => Sys2Proof.Machine.execDivu b f s
  | .divs b f => Sys2Proof.Machine.execDivs b f s
  | .remu b f => Sys2Proof.Machine.execRemu b f s
  | .rems b f => Sys2Proof.Machine.execRems b f s
  | .pcmp b f => Sys2Proof.Machine.execPcmp b f s
  | .ld b f => Sys2Proof.Machine.execLd b f s
  | .st b f => Sys2Proof.Machine.execSt b f s
  | .ldg b f => Sys2Proof.Machine.execLdg b f s
  | .stg b f => Sys2Proof.Machine.execStg b f s
  | .ldgResponse b => Sys2Proof.Machine.execLdgResponse b s
  | .stp b f => Sys2Proof.Machine.execStp b f s
  | .psync b f => Sys2Proof.Machine.execPsync b f s
  | .br b f => Sys2Proof.Machine.execBr b f s
  | .jal b f => Sys2Proof.Machine.execJal b f s
  | .jr b f => Sys2Proof.Machine.execJr b f s
  | .loop b f => Sys2Proof.Machine.execLoop b f s
  | .loopi b f => Sys2Proof.Machine.execLoopi b f s
  | .lpop b f => Sys2Proof.Machine.execLpop b f s
  | .mset b f => Sys2Proof.Machine.execMset b f s
  | .mget b f => Sys2Proof.Machine.execMget b f s
  | .trap b f => Sys2Proof.Machine.execTrap b f s
  | .retx b f => Sys2Proof.Machine.execRetx b f s
  | .reseal b f => Sys2Proof.Machine.execReseal b f s
  | .exceptionEntry b why => Sys2Proof.Machine.execExceptionEntry b why s
  | .countMatch b => Sys2Proof.Machine.execCountMatch b s
  | .halt b => Sys2Proof.Machine.execHalt b s
  | .haltRelease b => Sys2Proof.Machine.execHaltRelease b s
  | .step b => Sys2Proof.Machine.execStep b s
  | .debugDataWrite b hi v => Sys2Proof.Machine.execDebugDataWrite b hi v s
  | .latheDispatch b x => Sys2Proof.Machine.execLatheDispatch b x s
  | .pairDispatch b x j => Sys2Proof.Machine.execPairDispatch b x j s
  | .queueStallRelease b => Sys2Proof.Machine.execQueueStallRelease b s
  | .scalarResultWrite b r => Sys2Proof.Machine.execScalarResultWrite b r s
  | .vsetl b f => Sys2Proof.Machine.execVsetl b f s
  | .vcsr b f => Sys2Proof.Machine.execVcsr b f s
  | .vld b x => Sys2Proof.Machine.execVld b x s
  | .vst b x => Sys2Proof.Machine.execVst b x s
  | .vlds b x => Sys2Proof.Machine.execVlds b x s
  | .vsts b x => Sys2Proof.Machine.execVsts b x s
  | .vgath b x => Sys2Proof.Machine.execVgath b x s
  | .vscat b x => Sys2Proof.Machine.execVscat b x s
  | .vgathFf b x => Sys2Proof.Machine.execVgathFf b x s
  | .vadd b f p => Sys2Proof.Machine.execVadd b f p s
  | .vsub b f p => Sys2Proof.Machine.execVsub b f p s
  | .vrsub b f p => Sys2Proof.Machine.execVrsub b f p s
  | .vand b f p => Sys2Proof.Machine.execVand b f p s
  | .vor b f p => Sys2Proof.Machine.execVor b f p s
  | .vxor b f p => Sys2Proof.Machine.execVxor b f p s
  | .vsll b f p => Sys2Proof.Machine.execVsll b f p s
  | .vsrl b f p => Sys2Proof.Machine.execVsrl b f p s
  | .vsra b f p => Sys2Proof.Machine.execVsra b f p s
  | .vmin b f p => Sys2Proof.Machine.execVmin b f p s
  | .vmax b f p => Sys2Proof.Machine.execVmax b f p s
  | .vminu b f p => Sys2Proof.Machine.execVminu b f p s
  | .vmaxu b f p => Sys2Proof.Machine.execVmaxu b f p s
  | .vmul b f p => Sys2Proof.Machine.execVmul b f p s
  | .vmulh b f p => Sys2Proof.Machine.execVmulh b f p s
  | .vmulhu b f p => Sys2Proof.Machine.execVmulhu b f p s
  | .vaddsat b f p => Sys2Proof.Machine.execVaddsat b f p s
  | .vaddsatu b f p => Sys2Proof.Machine.execVaddsatu b f p s
  | .vsubsat b f p => Sys2Proof.Machine.execVsubsat b f p s
  | .vsubsatu b f p => Sys2Proof.Machine.execVsubsatu b f p s
  | .vavg b f p => Sys2Proof.Machine.execVavg b f p s
  | .vavgu b f p => Sys2Proof.Machine.execVavgu b f p s
  | .vfrmul b f p => Sys2Proof.Machine.execVfrmul b f p s
  | .vshrr b f p => Sys2Proof.Machine.execVshrr b f p s
  | .vshrra b f p => Sys2Proof.Machine.execVshrra b f p s
  | .vclipnu b f p => Sys2Proof.Machine.execVclipnu b f p s
  | .vclipn b f p => Sys2Proof.Machine.execVclipn b f p s
  | .vfadd b f p => Sys2Proof.Machine.execVfadd b f p s
  | .vfsub b f p => Sys2Proof.Machine.execVfsub b f p s
  | .vfmul b f p => Sys2Proof.Machine.execVfmul b f p s
  | .vfdiv b f p => Sys2Proof.Machine.execVfdiv b f p s
  | .vfsqrt b f p => Sys2Proof.Machine.execVfsqrt b f p s
  | .vfminnum b f p => Sys2Proof.Machine.execVfminnum b f p s
  | .vfmaxnum b f p => Sys2Proof.Machine.execVfmaxnum b f p s
  | .vfmin b f p => Sys2Proof.Machine.execVfmin b f p s
  | .vfmax b f p => Sys2Proof.Machine.execVfmax b f p s
  | .vfabs b f p => Sys2Proof.Machine.execVfabs b f p s
  | .vfneg b f p => Sys2Proof.Machine.execVfneg b f p s
  | .vfma b f p => Sys2Proof.Machine.execVfma b f p s
  | .vfms b f p => Sys2Proof.Machine.execVfms b f p s
  | .vfnma b f p => Sys2Proof.Machine.execVfnma b f p s
  | .vfnms b f p => Sys2Proof.Machine.execVfnms b f p s
  | .vceq b f p => Sys2Proof.Machine.execVceq b f p s
  | .vcne b f p => Sys2Proof.Machine.execVcne b f p s
  | .vclt b f p => Sys2Proof.Machine.execVclt b f p s
  | .vcge b f p => Sys2Proof.Machine.execVcge b f p s
  | .vcltu b f p => Sys2Proof.Machine.execVcltu b f p s
  | .vcgeu b f p => Sys2Proof.Machine.execVcgeu b f p s
  | .vfceq b f p => Sys2Proof.Machine.execVfceq b f p s
  | .vfclt b f p => Sys2Proof.Machine.execVfclt b f p s
  | .vfcle b f p => Sys2Proof.Machine.execVfcle b f p s
  | .vfcun b f p => Sys2Proof.Machine.execVfcun b f p s
  | .vcvt b f p => Sys2Proof.Machine.execVcvt b f p s
  | .vrsum b f p => Sys2Proof.Machine.execVrsum b f p s
  | .vrmax b f p => Sys2Proof.Machine.execVrmax b f p s
  | .vrmin b f p => Sys2Proof.Machine.execVrmin b f p s
  | .vrmaxu b f p => Sys2Proof.Machine.execVrmaxu b f p s
  | .vrminu b f p => Sys2Proof.Machine.execVrminu b f p s
  | .vfrsum b f p => Sys2Proof.Machine.execVfrsum b f p s
  | .vfrmax b f p => Sys2Proof.Machine.execVfrmax b f p s
  | .vfrmin b f p => Sys2Proof.Machine.execVfrmin b f p s
  | .mand b f p => Sys2Proof.Machine.execMand b f p s
  | .mor b f p => Sys2Proof.Machine.execMor b f p s
  | .mxor b f p => Sys2Proof.Machine.execMxor b f p s
  | .mandn b f p => Sys2Proof.Machine.execMandn b f p s
  | .mnot b f p => Sys2Proof.Machine.execMnot b f p s
  | .msetMask b f p => Sys2Proof.Machine.execMsetMask b f p s
  | .mclr b f p => Sys2Proof.Machine.execMclr b f p s
  | .vmpop b f p => Sys2Proof.Machine.execVmpop b f p s
  | .vmfirst b f p => Sys2Proof.Machine.execVmfirst b f p s
  | .vmv b f p => Sys2Proof.Machine.execVmv b f p s
  | .vmerge b f p => Sys2Proof.Machine.execVmerge b f p s
  | .vext b f p => Sys2Proof.Machine.execVext b f p s
  | .vins b f p => Sys2Proof.Machine.execVins b f p s
  | .vid b f p => Sys2Proof.Machine.execVid b f p s
  | .vtld b f p => Sys2Proof.Machine.execVtld b f p s
  | .vtst b f p => Sys2Proof.Machine.execVtst b f p s
  | .fop b f stop mism => Sys2Proof.Machine.execFop b f stop mism s
  | .fgauge b f stop mism => Sys2Proof.Machine.execFgauge b f stop mism s
  | .pload b x => Sys2Proof.Machine.execPload b x s
  | .tsync b f => Sys2Proof.Machine.execTsync b f s
  | .seed b f => Sys2Proof.Machine.execSeed b f s
  | .scoreboardRelease b forge => Sys2Proof.Machine.execScoreboardRelease b forge s
  | .drain b f stop mism => Sys2Proof.Machine.execDrain b f stop mism s
  | .drainC b f stop mism => Sys2Proof.Machine.execDrainC b f stop mism s
  | .ladleRowHandoff b => Sys2Proof.Machine.execLadleRowHandoff b s
  | .drainAckComplete b fail => Sys2Proof.Machine.execDrainAckComplete b fail s
  | .spareSwitchRequest b sp rel row => Sys2Proof.Machine.execSpareSwitchRequest b sp rel row s
  | .spareSwitchApply b => Sys2Proof.Machine.execSpareSwitchApply b s
  | .residueInject b => Sys2Proof.Machine.execResidueInject b s
  | .rowCountClear b => Sys2Proof.Machine.execRowCountClear b s
  | .drossStepDown => Sys2Proof.Machine.execDrossStepDown s
  | .forgeRestartGrant b => Sys2Proof.Machine.execForgeRestartGrant b s
  | .fenceB b f => Sys2Proof.Machine.execFenceB b f s
  | .fenceS b f => Sys2Proof.Machine.execFenceS b f s
  | .fenceH b f => Sys2Proof.Machine.execFenceH b f s
  | .fenceD b f => Sys2Proof.Machine.execFenceD b f s
  | .fenceP b f => Sys2Proof.Machine.execFenceP b f s
  | .fenceTimeout b => Sys2Proof.Machine.execFenceTimeout b s
  | .responseTimeout b => Sys2Proof.Machine.execResponseTimeout b s
  | .cinv b f => Sys2Proof.Machine.execCinv b f s
  | .aswap b f => Sys2Proof.Machine.execAswap b f s
  | .aadd b f => Sys2Proof.Machine.execAadd b f s
  | .aand b f => Sys2Proof.Machine.execAand b f s
  | .aor b f => Sys2Proof.Machine.execAor b f s
  | .axor b f => Sys2Proof.Machine.execAxor b f s
  | .amin b f => Sys2Proof.Machine.execAmin b f s
  | .amax b f => Sys2Proof.Machine.execAmax b f s
  | .aminu b f => Sys2Proof.Machine.execAminu b f s
  | .amaxu b f => Sys2Proof.Machine.execAmaxu b f s
  | .acas b f => Sys2Proof.Machine.execAcas b f s
  | .afadd b f => Sys2Proof.Machine.execAfadd b f s
  | .ald b f => Sys2Proof.Machine.execAld b f s
  | .ast b f => Sys2Proof.Machine.execAst b f s
  | .translationWalk e hmk dva acc => Sys2Proof.Machine.execTranslationWalk e hmk dva acc s
  | .quotaWaitRetry => Sys2Proof.Machine.execQuotaWaitRetry s
  | .faultRecordWrite f => Sys2Proof.Machine.execFaultRecordWrite f s
  | .faultResolved f v => Sys2Proof.Machine.execFaultResolved f v s
  | .faultAbandoned f v => Sys2Proof.Machine.execFaultAbandoned f v s
  | .invalidate r header w1 w2 w3 => Sys2Proof.Machine.execInvalidate r header w1 w2 w3 s
  | .invalidationComplete epoch => Sys2Proof.Machine.execInvalidationComplete epoch s
  | .lotEntryWrite v => Sys2Proof.Machine.execLotEntryWrite v s
  | .memoryRequest q => Sys2Proof.Machine.execMemoryRequest q s
  | .scrubRead c arisen => Sys2Proof.Machine.execScrubRead c arisen s
  | .refresh c => Sys2Proof.Machine.execRefresh c s
  | .deviceTempReadout g hottest => Sys2Proof.Machine.execDeviceTempReadout g hottest s
  | .temperSetLoad g c => Sys2Proof.Machine.execTemperSetLoad g c s
  | .driftCheck g c diff => Sys2Proof.Machine.execDriftCheck g c diff s
  | .periodicRetrain g c => Sys2Proof.Machine.execPeriodicRetrain g c s
  | .retrainSlice c r => Sys2Proof.Machine.execRetrainSlice c r s
  | .ingotRowRepair sh c bank row => Sys2Proof.Machine.execIngotRowRepair sh c bank row s
  | .reliefGo g c rate => Sys2Proof.Machine.execReliefGo g c rate s
  | .reliefLineCopy => Sys2Proof.Machine.execReliefLineCopy s
  | .marginPoint v => Sys2Proof.Machine.execMarginPoint v s
  | .marginResult errs => Sys2Proof.Machine.execMarginResult errs s
  | .selfRefreshEntry sh => Sys2Proof.Machine.execSelfRefreshEntry sh s
  | .groupBringup u failed trained band => Sys2Proof.Machine.execGroupBringup u failed trained band s
  | .carterDoorbellWake c => Sys2Proof.Machine.execCarterDoorbellWake c s
  | .move c loc => Sys2Proof.Machine.execMove c loc s
  | .gather c loc => Sys2Proof.Machine.execGather c loc s
  | .scatter c loc => Sys2Proof.Machine.execScatter c loc s
  | .fill c loc => Sys2Proof.Machine.execFill c loc s
  | .carterNop c loc => Sys2Proof.Machine.execCarterNop c loc s
  | .mark c loc => Sys2Proof.Machine.execMark c loc s
  | .rewind c loc => Sys2Proof.Machine.execRewind c loc s
  | .release c loc => Sys2Proof.Machine.execRelease c loc s
  | .markAndRelease c loc => Sys2Proof.Machine.execMarkAndRelease c loc s
  | .descriptorComplete c loc => Sys2Proof.Machine.execDescriptorComplete c loc s
  | .descriptorFail c loc => Sys2Proof.Machine.execDescriptorFail c loc s
  | .carterRequestTimeout c loc => Sys2Proof.Machine.execCarterRequestTimeout c loc s
  | .launchCopyPart n => Sys2Proof.Machine.execLaunchCopyPart n s
  | .carterDisable c => Sys2Proof.Machine.execCarterDisable c s
  | .localRingDisable c => Sys2Proof.Machine.execLocalRingDisable c s
  | .hopperPutUnit c loc => Sys2Proof.Machine.execHopperPutUnit c loc s
  | .idleTimeoutClose h => Sys2Proof.Machine.execIdleTimeoutClose h s
  | .hopperTake c loc => Sys2Proof.Machine.execHopperTake c loc s
  | .autoRelease h => Sys2Proof.Machine.execAutoRelease h s
  | .hopperNotice h => Sys2Proof.Machine.execHopperNotice h s
  | .hopperDisable h => Sys2Proof.Machine.execHopperDisable h s
  | .ringAdd b f => Sys2Proof.Machine.execRingAdd b f s
  | .ringSet b f => Sys2Proof.Machine.execRingSet b f s
  | .ringAbort b f => Sys2Proof.Machine.execRingAbort b f s
  | .wait b f => Sys2Proof.Machine.execWait b f s
  | .waitAsync b f => Sys2Proof.Machine.execWaitAsync b f s
  | .peal b f => Sys2Proof.Machine.execPeal b f s
  | .bellCountWake w => Sys2Proof.Machine.execBellCountWake w s
  | .bellWake b => Sys2Proof.Machine.execBellWake b s
  | .bellCountSet v => Sys2Proof.Machine.execBellCountSet v s
  | .chime b f => Sys2Proof.Machine.execChime b f s
  | .chimeReceive peer seq resync hmk bell v => Sys2Proof.Machine.execChimeReceive peer seq resync hmk bell v s
  | .chimeAckReceive peer seq refused => Sys2Proof.Machine.execChimeAckReceive peer seq refused s
  | .chimeAckTimeout b => Sys2Proof.Machine.execChimeAckTimeout b s
  | .chimeResend peer => Sys2Proof.Machine.execChimeResend peer s
  | .ringTailDoorbell f r v => Sys2Proof.Machine.execRingTailDoorbell f r v s
  | .cqHeadDoorbell f r v => Sys2Proof.Machine.execCqHeadDoorbell f r v s
  | .shiftDoorbell f => Sys2Proof.Machine.execShiftDoorbell f s
  | .fetchTurn host => Sys2Proof.Machine.execFetchTurn host s
  | .nop r => Sys2Proof.Machine.execNop r s
  | .launch r => Sys2Proof.Machine.execLaunch r s
  | .copy r => Sys2Proof.Machine.execCopy r s
  | .bwait r => Sys2Proof.Machine.execBwait r s
  | .bring r => Sys2Proof.Machine.execBring r s
  | .benchAssign n => Sys2Proof.Machine.execBenchAssign n s
  | .benchRelease n => Sys2Proof.Machine.execBenchRelease n s
  | .groupWake n => Sys2Proof.Machine.execGroupWake n s
  | .kernelEnd n => Sys2Proof.Machine.execKernelEnd n s
  | .klimLapse n => Sys2Proof.Machine.execKlimLapse n s
  | .completionRecordWrite r => Sys2Proof.Machine.execCompletionRecordWrite r s
  | .slotPreempt n => Sys2Proof.Machine.execSlotPreempt n s
  | .slotAbort n => Sys2Proof.Machine.execSlotAbort n s
  | .slotResume n => Sys2Proof.Machine.execSlotResume n s
  | .slotNotice n => Sys2Proof.Machine.execSlotNotice n s
  | .autoPreempt => Sys2Proof.Machine.execAutoPreempt s
  | .benchHandover b => Sys2Proof.Machine.execBenchHandover b s
  | .stateImageWrite b => Sys2Proof.Machine.execStateImageWrite b s
  | .stateImageRestore n => Sys2Proof.Machine.execStateImageRestore n s
  | .shiftBoundary => Sys2Proof.Machine.execShiftBoundary s
  | .ringResume r => Sys2Proof.Machine.execRingResume r s
  | .ringDisable x => Sys2Proof.Machine.execRingDisable x s
  | .benchDisable b => Sys2Proof.Machine.execBenchDisable b s
  | .benchReset b => Sys2Proof.Machine.execBenchReset b s
  | .benchResetComplete t => Sys2Proof.Machine.execBenchResetComplete t s
  | .seizureReset t => Sys2Proof.Machine.execSeizureReset t s
  | .errorRecordWrite f => Sys2Proof.Machine.execErrorRecordWrite f s
  | .linkTraining k gen width flit => Sys2Proof.Machine.execLinkTraining k gen width flit s
  | .linkRecovery k gen width => Sys2Proof.Machine.execLinkRecovery k gen width s
  | .linkDown k => Sys2Proof.Machine.execLinkDown k s
  | .linkUp k => Sys2Proof.Machine.execLinkUp k s
  | .holdTimeout k => Sys2Proof.Machine.execHoldTimeout k s
  | .hotReset k => Sys2Proof.Machine.execHotReset k s
  | .perLinkReset k => Sys2Proof.Machine.execPerLinkReset k s
  | .functionLevelReset f => Sys2Proof.Machine.execFunctionLevelReset f s
  | .bar4Read k off len => Sys2Proof.Machine.execBar4Read k off len s
  | .bar4Write k off data poisoned => Sys2Proof.Machine.execBar4Write k off data poisoned s
  | .bar4Atomicop k off => Sys2Proof.Machine.execBar4Atomicop k off s
  | .lgo => Sys2Proof.Machine.execLgo s
  | .msixSend f vec => Sys2Proof.Machine.execMsixSend f vec s
  | .msixUnmask f vec => Sys2Proof.Machine.execMsixUnmask f vec s
  | .hostCompletion tag st host => Sys2Proof.Machine.execHostCompletion tag st host s
  | .functionDisable f => Sys2Proof.Machine.execFunctionDisable f s
  | .flitReceive p x => Sys2Proof.Machine.execFlitReceive p x s
  | .replayTimeout p => Sys2Proof.Machine.execReplayTimeout p s
  | .laneDegrade p x => Sys2Proof.Machine.execLaneDegrade p x s
  | .portLinkUp p dom peer port => Sys2Proof.Machine.execPortLinkUp p dom peer port s
  | .portDisable p => Sys2Proof.Machine.execPortDisable p s
  | .packetForward k => Sys2Proof.Machine.execPacketForward k s
  | .pathFailover peer => Sys2Proof.Machine.execPathFailover peer s
  | .dryRtWrite alt v => Sys2Proof.Machine.execDryRtWrite alt v s
  | .routeChange peer => Sys2Proof.Machine.execRouteChange peer s
  | .peerRequest src tag q => Sys2Proof.Machine.execPeerRequest src tag q s
  | .peerResponse tag peer st data => Sys2Proof.Machine.execPeerResponse tag peer st data s
  | .credit p cls layer units => Sys2Proof.Machine.execCredit p cls layer units s
  | .allreduce q => Sys2Proof.Machine.execAllreduce q s
  | .reducescatter q => Sys2Proof.Machine.execReducescatter q s
  | .allgather q => Sys2Proof.Machine.execAllgather q s
  | .broadcast q => Sys2Proof.Machine.execBroadcast q s
  | .reduce q => Sys2Proof.Machine.execReduce q s
  | .alloyHello q h => Sys2Proof.Machine.execAlloyHello q h s
  | .alloyData q chunk elem final data => Sys2Proof.Machine.execAlloyData q chunk elem final data s
  | .collTimeout q => Sys2Proof.Machine.execCollTimeout q s
  | .distress q cid origin reason fromPrev => Sys2Proof.Machine.execDistress q cid origin reason fromPrev s
  | .distressHoldExpiry cid => Sys2Proof.Machine.execDistressHoldExpiry cid s
  | .alloyQuarterDisable q => Sys2Proof.Machine.execAlloyQuarterDisable q s
  | .sensorSample samples power => Sys2Proof.Machine.execSensorSample samples power s
  | .quenchFall sh => Sys2Proof.Machine.execQuenchFall sh s
  | .level4Stop sh => Sys2Proof.Machine.execLevel4Stop sh s
  | .dwellExpired sh => Sys2Proof.Machine.execDwellExpired sh s
  | .thermalTrip sensor t1 t2 => Sys2Proof.Machine.execThermalTrip sensor t1 t2 s
  | .powerCheck mean => Sys2Proof.Machine.execPowerCheck mean s
  | .divisorChange sh => Sys2Proof.Machine.execDivisorChange sh s
  | .droopStretch sh => Sys2Proof.Machine.execDroopStretch sh s
  | .ruleEvaluation => Sys2Proof.Machine.execRuleEvaluation s
  | .napEntry => Sys2Proof.Machine.execNapEntry s
  | .dozeRequest => Sys2Proof.Machine.execDozeRequest s
  | .awakeRequest => Sys2Proof.Machine.execAwakeRequest s
  | .dozeWake => Sys2Proof.Machine.execDozeWake s
  | .refclkLoss => Sys2Proof.Machine.execRefclkLoss s
  | .mldPour mask => Sys2Proof.Machine.execMldPour mask s
  | .postedWriteLand blk => Sys2Proof.Machine.execPostedWriteLand blk s
  | .pourFieldLand off => Sys2Proof.Machine.execPourFieldLand off s
  | .parityScrub blk bad => Sys2Proof.Machine.execParityScrub blk bad s
  | .protModeWrite blk bench mode => Sys2Proof.Machine.execProtModeWrite blk bench mode s
  | .blockDrainComplete u => Sys2Proof.Machine.execBlockDrainComplete u s
  | .registerWrite path off v => Sys2Proof.Machine.execRegisterWrite path off v s
  | .powerOn => Sys2Proof.Machine.execPowerOn s
  | .powerOff => Sys2Proof.Machine.execPowerOff s
  | .perstAssert => Sys2Proof.Machine.execPerstAssert s
  | .perstRelease straps => Sys2Proof.Machine.execPerstRelease straps s
  | .railDeparture => Sys2Proof.Machine.execRailDeparture s
  | .putRecord m data => Sys2Proof.Machine.execPutRecord m data s
  | .putImage m kind image => Sys2Proof.Machine.execPutImage m kind image s
  | .activate kind => Sys2Proof.Machine.execActivate kind s
  | .getRecord m => Sys2Proof.Machine.execGetRecord m s
  | .getMeas m => Sys2Proof.Machine.execGetMeas m s
  | .attest m nonce => Sys2Proof.Machine.execAttest m nonce s
  | .putConfig m data => Sys2Proof.Machine.execPutConfig m data s
  | .identityKeyDerived => Sys2Proof.Machine.execIdentityKeyDerived s
  | .benchSelfTest ts => Sys2Proof.Machine.execBenchSelfTest ts s
  | .ready => Sys2Proof.Machine.execReady s
  | .runtimeWatchdog => Sys2Proof.Machine.execRuntimeWatchdog s
  | .regRead off => Sys2Proof.Machine.execRegRead off s
  | .regWrite off v => Sys2Proof.Machine.execRegWrite off v s
  | .getState => Sys2Proof.Machine.execGetState s
  | .sbGetMeas => Sys2Proof.Machine.execSbGetMeas s
  | .sbAttest nonce => Sys2Proof.Machine.execSbAttest nonce s
  | .alertResponse => Sys2Proof.Machine.execAlertResponse s
  | .bypass => Sys2Proof.Machine.execBypass s
  | .idcode => Sys2Proof.Machine.execIdcode s
  | .samplePreload => Sys2Proof.Machine.execSamplePreload s
  | .extest => Sys2Proof.Machine.execExtest s
  | .extestPulse => Sys2Proof.Machine.execExtestPulse s
  | .extestTrain => Sys2Proof.Machine.execExtestTrain s
  | .clamp => Sys2Proof.Machine.execClamp s
  | .highz => Sys2Proof.Machine.execHighz s
  | .enableWrite u => Sys2Proof.Machine.execEnableWrite u s
  | .configurationRequest f w => Sys2Proof.Machine.execConfigurationRequest f w s
  | .completionTimeout tag => Sys2Proof.Machine.execCompletionTimeout tag s
  | .assayVote blk bench flips => Sys2Proof.Machine.execAssayVote blk bench flips s

end Sys2Proof.Machine
end

