-- ==== Sys2Proof/Safety.lean ====
section
/-! DEFINITION. The terms in which claims about the device are stated: when a command meets the conditions that the manual names,
what one completed instruction leaves, and what an exception entry leaves. -/

namespace Sys2Proof.Claims

open Sys2Proof.Machine

/-! ## Completion -/

/-- The command completes: `exec` answers a next state, and `P` holds of it. -/
def completes (i : Instr) (s : State) (P : State → Prop) : Prop := ∃ t, exec i s = .next t ∧ P t

/-- A safe run stops only where the manual binds nothing: after a rail has departed (18 R513). -/
def safe (s : State) : Prop := s.departed = false

/-! ## The control core -/

/-- The `n` words from PC on carry no error, in the program store or in the lookahead buffer, and no word of the store carries a
single-bit error, which a fetch for the lookahead buffer would correct (02 R60, R64). -/
def cleanWords (x : Bench) (n : Nat) : Bool :=
  let pc := x.core.pc
  (List.range n).all (fun k =>
      (Sp.find x.psErr (pc + BitVec.ofNat 16 k).toNat).isNone
        && x.core.lookahead.all fun e => e.addr != pc + BitVec.ofNat 16 k || !e.bad)
    && x.psErr.all fun e => e.2 == .double

/-- An instruction of `n` words, of condition field `cond`, that names the scalar registers `regs`, reaches its Execute state in
bench `b` (02 R42, R52, R60, R72, R87): the core begins an instruction, its words are clean, no breakpoint matches, the condition
holds, and no named register is pending. -/
def ready (s : State) (b : BenchId) (cond : BitVec 4) (n : Nat) (regs : List R5) : Bool :=
  let c := (s.bench b).core
  !s.departed && s.canIssue b && cleanWords (s.bench b) n
    && (c.bsk || (s.breakpoint b c.pc).isNone)
    && c.flags.holds cond
    && regs.all fun r => r == 0 || !c.pendingScalar.contains r

/-- As `ready`, but the condition is false (02 R43). -/
def unready (s : State) (b : BenchId) (cond : BitVec 4) : Bool :=
  let c := (s.bench b).core
  !s.departed && s.canIssue b && cleanWords (s.bench b) 1 && (c.bsk || (s.breakpoint b c.pc).isNone) && !c.flags.holds cond

/-- Nothing outside bench `b` differs. -/
def onlyBench (s t : State) (b : BenchId) : Prop := t = s.setBench b (t.bench b)

/-- Nothing of the bench outside its core differs. -/
def onlyCore (x y : Bench) : Prop := { y with core := x.core } = x

/-- Nothing of the core differs but the scalar registers, flags, loops and PC, and what every completion settles: CYCLE, the
lookahead buffer, BSK, the stall that ends, and a halt of R86. -/
def coreKeeps (c d : Core) : Prop :=
  { d with
    sregs := c.sregs, flags := c.flags, loops := c.loops, pc := c.pc, cycle := c.cycle, lookahead := c.lookahead
    fetchDue := c.fetchDue, bsk := c.bsk, stall := c.stall, halted := c.halted, why := c.why, stepping := c.stepping } = c

/-- Scalar register `r` takes `v` and every other keeps its value; a write to s0 is discarded (02 R46). -/
def writes (c d : Core) (r : R5) (v : W64) : Prop := ∀ q, d.rd q = if q = r ∧ q ≠ 0 then v else c.rd q

/-- No scalar register changes. -/
def regsKept (c d : Core) : Prop := ∀ q, d.rd q = c.rd q

/-- An instruction whose last word is the `n`-th has completed in `cyc` A-cycles beyond its Fetch state (02 table 2.7, R53, R54):
CYCLE counts them, BSK is 0 (03 R106) and no stall is left. -/
def timed (s t : State) (b : BenchId) (cyc : Nat) : Prop :=
  (t.bench b).core.cycle = (s.bench b).core.cycle + BitVec.ofNat 64 (s.fetchCycles b + cyc)
    ∧ (t.bench b).core.bsk = false ∧ (t.bench b).core.stall = none

/-- PC and the loop stack are those of the loop-end decision after an instruction of `n` words (02 R76). -/
def fellThrough (s t : State) (b : BenchId) (n : Nat) : Prop :=
  let c := (s.bench b).core
  ((t.bench b).core.loops, (t.bench b).core.pc)
    = loopEnd (c.pc + BitVec.ofNat 16 (n - 1)) c.loops (c.pc + BitVec.ofNat 16 n)

/-- A transfer to `a`, which makes no loop-end decision (02 R76). -/
def jumped (s t : State) (b : BenchId) (a : BitVec 16) : Prop :=
  (t.bench b).core.pc = a ∧ (t.bench b).core.loops = (s.bench b).core.loops

/-- The frame of a completed instruction of the core alone: bench `b`'s core only, in `cyc` A-cycles. -/
def coreStep (s t : State) (b : BenchId) (cyc : Nat) : Prop :=
  onlyBench s t b ∧ onlyCore (s.bench b) (t.bench b) ∧ coreKeeps (s.bench b).core (t.bench b).core ∧ timed s t b cyc

/-- How an instruction changes the flags when SF is 1 (02 R47). -/
inductive FlagRule where
  /-- Z and N of the result. -/
  | zn
  /-- An addition; with `carry` it counts C. -/
  | addition (carry : Bool)
  /-- A subtraction; with `carry` it counts the borrow 1 - C. -/
  | subtraction (carry : Bool)
  deriving DecidableEq, Repr

/-- The flags after an operation on `x` and `y` of result `r` (02 R47): V is set where the operands' signs and the result's show
that the exact result does not fit. -/
def FlagRule.after (k : FlagRule) (f : Flags) (x y r : W64) : Flags :=
  match k with
  | .zn => { f with z := decide (r = 0), n := r.msb }
  | .addition carry =>
    { f with
      z := decide (r = 0), n := r.msb
      c := decide (2 ^ 64 ≤ x.toNat + y.toNat + (if carry && f.c then 1 else 0))
      v := x.msb == y.msb && x.msb != r.msb }
  | .subtraction carry =>
    { f with
      z := decide (r = 0), n := r.msb
      c := decide (y.toNat + (if carry && !f.c then 1 else 0) ≤ x.toNat)
      v := x.msb != y.msb && x.msb != r.msb }

/-- A register instruction: its constructor, its A-cycles, its result from the flags and the operands, and its flags. -/
structure RegRow where
  instr : BenchId → FmtR → Instr
  cycles : Nat
  result : Flags → W64 → W64 → W64
  flags : FlagRule

/-- ALU, MULC and DIVC (02 table 2.5, R49). -/
def regRows : List RegRow :=
  [ ⟨.add, 3, fun _ x y => x + y, .addition false⟩,
    ⟨.sub, 3, fun _ x y => x - y, .subtraction false⟩,
    ⟨.adc, 3, fun f x y => x + y + (if f.c then 1 else 0), .addition true⟩,
    ⟨.sbc, 3, fun f x y => x - y - (if f.c then 0 else 1), .subtraction true⟩,
    ⟨.and, 3, fun _ x y => x &&& y, .zn⟩,
    ⟨.or, 3, fun _ x y => x ||| y, .zn⟩,
    ⟨.xor, 3, fun _ x y => x ^^^ y, .zn⟩,
    ⟨.andn, 3, fun _ x y => x &&& ~~~y, .zn⟩,
    ⟨.sll, 3, fun _ x y => x <<< (y.setWidth 6).toNat, .zn⟩,
    ⟨.srl, 3, fun _ x y => x >>> (y.setWidth 6).toNat, .zn⟩,
    ⟨.sra, 3, fun _ x y => x.sshiftRight (y.setWidth 6).toNat, .zn⟩,
    ⟨.ror, 3, fun _ x y => x.rotateRight (y.setWidth 6).toNat, .zn⟩,
    ⟨.min, 3, fun _ x y => if x.slt y then x else y, .zn⟩,
    ⟨.max, 3, fun _ x y => if x.slt y then y else x, .zn⟩,
    ⟨.minu, 3, fun _ x y => if x.ult y then x else y, .zn⟩,
    ⟨.maxu, 3, fun _ x y => if x.ult y then y else x, .zn⟩,
    ⟨.clz, 3, fun _ x _ => x.clz, .zn⟩,
    ⟨.popc, 3, fun _ x _ => BitVec.ofNat 64 ((List.range 64).countP fun k => x.getLsbD k), .zn⟩ ] ++
  [ ⟨.mul, 6, fun _ x y => BitVec.ofNat 64 (x.toNat * y.toNat), .zn⟩,
    ⟨.mulhu, 6, fun _ x y => BitVec.ofNat 64 (x.toNat * y.toNat / 2 ^ 64), .zn⟩,
    ⟨.mulhs, 6, fun _ x y => BitVec.ofInt 64 (x.toInt * y.toInt / 2 ^ 64), .zn⟩,
    ⟨.divu, 34, fun _ x y => if y = 0 then BitVec.allOnes 64 else x.udiv y, .zn⟩,
    ⟨.divs, 34, fun _ x y => if y = 0 then BitVec.allOnes 64 else BitVec.ofInt 64 (x.toInt.tdiv y.toInt), .zn⟩,
    ⟨.remu, 34, fun _ x y => if y = 0 then x else x.umod y, .zn⟩,
    ⟨.rems, 34, fun _ x y => if y = 0 then x else BitVec.ofInt 64 (x.toInt.tmod y.toInt), .zn⟩ ]

/-- An immediate instruction of format I: its constructor, result and flags (02 R48). -/
structure ImmRow where
  instr : BenchId → FmtI → Instr
  result : W64 → W64 → W64
  flags : FlagRule

/-- ADDI, ANDI, ORI and XORI. -/
def immRows : List ImmRow :=
  [ ⟨.addi, fun x y => x + y, .addition false⟩, ⟨.andi, fun x y => x &&& y, .zn⟩, ⟨.ori, fun x y => x ||| y, .zn⟩,
    ⟨.xori, fun x y => x ^^^ y, .zn⟩ ]

/-- A long form: its constructor, result from ra and IMM36, and whether SF sets the flags, as ADD does (02 R48). -/
structure LongRow where
  instr : BenchId → FmtX → Instr
  result : W64 → W36 → W64
  sets : Bool

/-- LI, LIH and ADDL. -/
def longRows : List LongRow :=
  [ ⟨.li, fun _ i => i.signExtend 64, false⟩,
    ⟨.lih, fun x i => (x &&& 0x0000000FFFFFFFFF#64) ||| ((i.extractLsb' 0 28).setWidth 64 <<< 36), false⟩,
    ⟨.addl, fun x i => x + i.signExtend 64, true⟩ ]

/-- The shift that KIND selects: SLL, SRL, SRA, ROR (02 R48). -/
def shiftBy (k : BitVec 2) (x : W64) (n : Nat) : W64 :=
  if k = 0 then x <<< n else if k = 1 then x >>> n else if k = 2 then x.sshiftRight n else x.rotateRight n

/-- The relation REL of PCMP (02 R50). -/
def related (rel : BitVec 3) (x y : W64) : Bool :=
  if rel = 0 then decide (x = y) else if rel = 1 then decide (x ≠ y) else if rel = 2 then x.slt y
  else if rel = 3 then !x.slt y else if rel = 4 then x.ult y else if rel = 5 then !x.ult y else decide (x &&& y ≠ 0)

/-- Predicate p1, p2 or p3 takes `v`; the flags and the other predicates are kept (02 R50). -/
def predSet (f g : Flags) (pd : BitVec 2) (v : Bool) : Prop :=
  g = { f with p1 := if pd = 1 then v else f.p1, p2 := if pd = 2 then v else f.p2, p3 := if pd = 3 then v else f.p3 }

/-! ### Bench-store and program-store accesses -/

/-- An LD (`read`) or ST passes the checks on its access (02 R58, R87; 03 R93): it is aligned or MODE.LEN is 1, no watchpoint
matches, no stack guard closes a byte, and a read meets no poisoned block. -/
def storeOk (s : State) (b : BenchId) (f : FmtM) (read : Bool) : Bool :=
  let c := (s.bench b).core
  let n := 2 ^ f.sz.toNat
  let ea := c.ea f.ra f.off
  let parts := accessParts ea n
  (c.len || ea.toNat % n == 0) && (s.firstWatch b 0 read (!read) 0 parts).isNone
    && (firstPart (fun a n => s.guarded b c.pl (a.toNat % 0x200000) n) 0 parts).isNone
    && (!read || (firstPart (fun a n => (s.bench b).storePoisoned (a.toNat % 0x200000) n) 0 parts).isNone)

/-- BEN_PGUARD lets the current level write program-store word `a` modulo 65,536 (02 R62). -/
def stpAllowed (s : State) (b : BenchId) (a : W64) : Bool :=
  let w := a.toNat % 65536
  let mlim := s.fld .benPguard b.val 15 0
  let jlim := s.fld .benPguard b.val 31 16
  let pl := (s.bench b).core.pl.toNat
  if w < mlim then 2 ≤ pl else if w < max jlim mlim then 1 ≤ pl else true

/-- The state in which a single-bit error of program-store word `a` is corrected, written back and counted (02 R60). -/
def psCorrected (s : State) (b : BenchId) (a : BitVec 16) : State :=
  (s.updBench b fun x => { x with psErr := Sp.erase x.psErr a.toNat }).satAdd .benPsErr b.val 15 0 1

/-- The next instruction's first word comes from the program store, not from the lookahead buffer (02 R53, R64). -/
def fetchesWord (s : State) (b : BenchId) : Bool :=
  s.fetchCycles b != 0 || (s.bench b).core.lookahead.all fun e => e.addr != (s.bench b).core.pc

/-! ### Debug (02 R86, R88) -/

/-- Nothing has come for the core of bench `b` while it was halted, and it waits for no response. -/
def nothingCame (s : State) (b : BenchId) : Prop :=
  (∀ l ∈ s.late, l.bench ≠ some b) ∧ ∀ a ps, (s.bench b).core.stall ≠ some (.response a ps)

/-- A 64-bit value with its upper or lower half replaced. -/
def halfSet (hi : Bool) (v : W32) (x : W64) : W64 := if hi = true then v ++ x.extractLsb' 0 32 else x.extractLsb' 32 32 ++ v

/-! ### Loops -/

/-- None of the illegal cases of LOOP and LOOPI holds (02 R74). -/
def loopAllowed (c : Core) (len : BitVec 12) : Bool :=
  let start := c.pc.toNat + 1
  let last := c.pc.toNat + len.toNat
  len != 0 && decide (last ≤ 65535) && decide (c.loops.length < 4) && c.loops.all (fun l => l.le != c.pc)
    && match c.loops.head? with
       | none => true
       | some l => !(decide (l.ls.toNat ≤ start) && decide (start ≤ l.le.toNat) && decide (l.le.toNat < last))

/-- A loop of `len` words and count `n` is pushed, or its body is skipped when `n` is 0 (02 R75). -/
def looped (s t : State) (b : BenchId) (n : W32) (len : BitVec 12) : Prop :=
  let c := (s.bench b).core
  let d := (t.bench b).core
  if n = 0 then d.loops = c.loops ∧ d.pc = c.pc + len.setWidth 16 + 1
  else d.loops = { lc := n, ls := c.pc + 1, le := c.pc + len.setWidth 16 } :: c.loops ∧ d.pc = c.pc + 1

/-! ### Special registers -/

/-- MGET of special register `n` is legal at the current level (02 table 2.8, R80; 03 R91). -/
def specialReadable (c : Core) (n : Nat) : Bool :=
  (n ≤ 8 && !(2 ≤ n && n ≤ 4 && c.loops.isEmpty)) || (0x10 ≤ n && n ≤ 0x12 && c.pl != 0)

/-- The value of special register `n` as MGET reads it (02 table 2.8; 03 R90, R91). CYCLE is sampled in the Execute state. -/
def specialValue (s : State) (b : BenchId) (n : Nat) : W64 :=
  let c := (s.bench b).core
  let k := s.bank b (if c.pl = 2 then 2 else 1)
  let l := c.loops.head?.getD ⟨0, 0, 0⟩
  match n with
  | 0x00 => BitVec.ofNat 64 (2 * (s.plumb b).toNat + c.len.toNat)
  | 0x01 => c.flags.toBits.setWidth 64
  | 0x02 => l.lc.setWidth 64
  | 0x03 => l.ls.setWidth 64
  | 0x04 => l.le.setWidth 64
  | 0x05 => BitVec.ofNat 64 c.loops.length
  | 0x06 => BitVec.ofNat 64 (b.val + 256 * (b.val / 16) + 4096 * (b.val / 64))
  | 0x07 => c.cycle + BitVec.ofNat 64 (s.fetchCycles b + 2)
  | 0x08 => s.status b
  | 0x10 => k.xsp
  | 0x11 => k.xsl
  | 0x12 => k.xbase.setWidth 64
  | _ => 0

/-- MSET of `v` to special register `n` is legal at the current level (02 table 2.8, R80; 03 R91, R534). -/
def specialWritable (s : State) (b : BenchId) (n : Nat) (v : W64) : Bool :=
  let c := (s.bench b).core
  let k := s.bank b 1
  n ≤ 1 || (2 ≤ n && n ≤ 4 && !c.loops.isEmpty) || n == 0x12 && c.pl != 0
    || ((n == 0x10 || n == 0x11) && c.pl != 0
      && !(c.pl == 1 && s.areaGuarded b (if n = 0x10 then { k with xsp := v } else { k with xsl := v })))

/-- The bits of FLAGS, XSP, XSL and XBASE that a write keeps (02 table 2.8). -/
def specialMask (n : Nat) : W64 := if n = 0x01 then 0x7F else if n = 0x12 then 0xFFFF else BitVec.allOnes 64

/-- The loop stack after an MSET of `v` to LC, LS or LE; any other register leaves it. -/
def loopsSet (ls : List LoopEntry) (n : Nat) (v : W64) : List LoopEntry :=
  match ls with
  | [] => []
  | l :: r =>
    (if n = 2 then { l with lc := v.setWidth 32 } else if n = 3 then { l with ls := v.setWidth 16 }
      else if n = 4 then { l with le := v.setWidth 16 } else l) :: r

/-! ### Words of the instructions -/

/-- The bench, the instruction word and whether it is long, of a command that is one instruction of the control core (02 table
2.3). -/
def coreWord : Instr → Option (BenchId × W36 × Bool)
  | .add b f => some (b, f.word 0x01 0x00, false)
  | .sub b f => some (b, f.word 0x01 0x01, false)
  | .adc b f => some (b, f.word 0x01 0x02, false)
  | .sbc b f => some (b, f.word 0x01 0x03, false)
  | .and b f => some (b, f.word 0x01 0x04, false)
  | .or b f => some (b, f.word 0x01 0x05, false)
  | .xor b f => some (b, f.word 0x01 0x06, false)
  | .andn b f => some (b, f.word 0x01 0x07, false)
  | .sll b f => some (b, f.word 0x01 0x08, false)
  | .srl b f => some (b, f.word 0x01 0x09, false)
  | .sra b f => some (b, f.word 0x01 0x0A, false)
  | .ror b f => some (b, f.word 0x01 0x0B, false)
  | .min b f => some (b, f.word 0x01 0x0C, false)
  | .max b f => some (b, f.word 0x01 0x0D, false)
  | .minu b f => some (b, f.word 0x01 0x0E, false)
  | .maxu b f => some (b, f.word 0x01 0x0F, false)
  | .clz b f => some (b, f.word 0x01 0x10, false)
  | .popc b f => some (b, f.word 0x01 0x11, false)
  | .addi b f => some (b, f.word 0x02, false)
  | .andi b f => some (b, f.word 0x03, false)
  | .ori b f => some (b, f.word 0x04, false)
  | .xori b f => some (b, f.word 0x05, false)
  | .shi b f => some (b, f.word 0x06, false)
  | .cmpi b f => some (b, f.word 0x07, false)
  | .li b f => some (b, f.word 0x08, true)
  | .lih b f => some (b, f.word 0x09, true)
  | .addl b f => some (b, f.word 0x0A, true)
  | .mul b f => some (b, f.word 0x10 0, false)
  | .mulhu b f => some (b, f.word 0x10 1, false)
  | .mulhs b f => some (b, f.word 0x10 2, false)
  | .divu b f => some (b, f.word 0x11 0, false)
  | .divs b f => some (b, f.word 0x11 1, false)
  | .remu b f => some (b, f.word 0x11 2, false)
  | .rems b f => some (b, f.word 0x11 3, false)
  | .pcmp b f => some (b, f.word 0x18, false)
  | .ld b f => some (b, f.word 0x20, false)
  | .st b f => some (b, f.word 0x21, false)
  | .stp b f => some (b, f.word 0x24, false)
  | .psync b f => some (b, f.word 0x25, false)
  | .jal b f => some (b, f.word 0x29, false)
  | .br b f => some (b, f.word 0x28, false)
  | .jr b f => some (b, f.word 0x2A, false)
  | .loop b f => some (b, f.word 0x2B, false)
  | .loopi b f => some (b, f.word 0x2C, false)
  | .lpop b f => some (b, f.word 0x2D, false)
  | .mset b f => some (b, f.word 0x30, false)
  | .mget b f => some (b, f.word 0x31, false)
  | .trap b f => some (b, f.word 0x32, false)
  | .retx b f => some (b, f.word 0x33, false)
  | .reseal b f => some (b, f.word 0x34, false)
  | _ => none

/-- The encodings that raise Illegal opcode in a core instruction (02 R44, R48, R50, R51, R56, R74, R79, R80; 03 table 3.3). -/
def illegalIn (s : State) : Instr → Bool
  | .shi _ f => f.rsv != 0
  | .cmpi _ f => f.rd != 0 || f.sf != 0
  | .li _ f | .lih _ f | .addl _ f => f.rsv != 0
  | .pcmp _ f => f.rsv != 0 || f.pd == 0 || f.rel == 7
  | .st _ f => f.sx == 1
  | .psync _ f => f.rsv != 0
  | .br _ f => f.rd != 0 || f.rsv != 0
  | .jal _ f => f.rsv != 0
  | .jr _ f => f.rsv != 0
  | .loop b f => f.rsv1 != 0 || f.rsv2 != 0 || !loopAllowed (s.bench b).core f.len
  | .loopi b f => !loopAllowed (s.bench b).core f.len
  | .lpop b f => f.rsv != 0 || decide ((s.bench b).core.loops.length ≤ f.nm1.toNat)
  | .mset b f =>
    f.rsv != 0 || !(f.sreg ∈ [0x00#8, 0x01, 0x02, 0x03, 0x04, 0x10, 0x11, 0x12])
      || (f.sreg ∈ [0x02#8, 0x03, 0x04] && (s.bench b).core.loops.isEmpty)
  | .mget b f =>
    f.rsv != 0 || !(f.sreg ∈ [0x00#8, 0x01, 0x02, 0x03, 0x04, 0x05, 0x06, 0x07, 0x08, 0x10, 0x11, 0x12])
      || (f.sreg ∈ [0x02#8, 0x03, 0x04] && (s.bench b).core.loops.isEmpty)
  | .trap _ f => f.rsv != 0
  | .retx _ f => f.rsv != 0 || f.adv == 3
  | .reseal _ f => f.rsv != 0
  | _ => false

/-! ## Exceptions (03) -/

/-- A frame fits on the stack of level `l` of bench `b`: no last-ditch frame is held, and the push passes neither the limit nor a
guarded range (03 R95); XSP lies where the user must keep it (R92). -/
def roomFor (s : State) (b : BenchId) (l : BitVec 2) : Bool :=
  let k := s.bank b l
  !(s.bench b).core.lda && decide (frameAddr k.xsl + 128 ≤ frameAddr k.xsp) && decide (frameAddr k.xsp ≤ 0x200000)
    && !s.frameGuarded b (frameAddr k.xsp - 128) l

/-- Exception entry at level `l` of cause `code`, subcause `sub`, from `s` (03 R94, R95, table 3.2): the frame's address, the words
that name the cause, the return address, the status and the seal; then XSP, STATUS, XDEPTH and PC. Registers, flags, PLB and
every byte of the bench store outside the frame keep their values. -/
def entered (s t : State) (b : BenchId) (l : BitVec 2) (code sub : Byte) (ret : BitVec 16) (addr : W64) (info : W32) : Prop :=
  let x := s.bench b
  let y := t.bench b
  let f := frameAddr (s.bank b l).xsp - 128
  y.frameWord f 0 = ret.setWidth 64
    ∧ y.frameWord f 1 &&& ~~~0x40#64 = s.status b &&& ~~~0x40#64
    ∧ y.frameWord f 2 = 0#32 ++ (x.core.xdepth + 1) ++ seal16 x.core.xkey (y.frameWord f 1) (x.core.xdepth + 1)
    ∧ y.frameWord f 3 = info ++ 0#16 ++ sub ++ code
    ∧ y.frameWord f 4 = addr
    ∧ y.frameWord f 7 = ((s.bank b l).xsp.setWidth 32).setWidth 64
    ∧ (t.bank b l).xsp.toNat = f
    ∧ y.core.pl = l ∧ y.core.ien = 0 ∧ y.core.len = false ∧ y.core.bsk = false ∧ y.core.loops = [] ∧ y.core.lda = false
    ∧ y.core.plb = x.core.plb ∧ y.core.flags = x.core.flags ∧ regsKept x.core y.core
    ∧ y.core.xdepth = x.core.xdepth + 1
    ∧ y.core.pc = (s.bank b l).xbase + BitVec.ofNat 16 (4 * code.toNat)
    ∧ ∀ a, a < 0x200000 → ¬ (f ≤ a ∧ a < f + 128) → y.store.byte a = x.store.byte a

/-- Exactly the interrupt of cause `code` is pending and may be taken (03 R109, table 3.7; STATUS.IEN). -/
def onlyPending (c : Core) (code : Byte) : Bool :=
  c.deferLathe.isNone && c.deferForge.isEmpty && !c.lda
    && c.pendPreempt == (code == 0x10) && c.pendBell == (code == 0x11) && c.pendCount == (code == 0x12)
    && c.pendNotice == (code == 0x13)
    && ((code == 0x10 && (c.pl.toNat < 2 || c.ien.getLsbD 0)) || (code == 0x11 && c.ien.getLsbD 1)
      || (code == 0x12 && c.ien.getLsbD 2) || (code == 0x13 && c.ien.getLsbD 3))

/-- The top frame of the current level's bank passes every check of RETX (03 R98). -/
def frameGood (s : State) (b : BenchId) : Bool :=
  let x := s.bench b
  let fa := frameAddr (s.bank b x.core.pl).xsp
  let st := x.frameWord fa 1
  x.core.pl != 0 && !x.storePoisoned fa 96 && seal16 x.core.xkey st x.core.xdepth == (x.frameWord fa 2).setWidth 16
    && decide (st.extractLsb' 0 2 ≤ x.core.pl) && st.extractLsb' 0 2 != 3 && decide ((st.extractLsb' 16 3).toNat ≤ 4)

/-! ## Engine queues (02 R70-R73) -/

/-- An engine instruction passes Decode under the core's copy of the vector type: neither illegal nor reserved (02 R44). -/
def engLegal (c : Core) (i : EngInstr) : Bool := !i.illegal c.vsew c.vgrp && !i.reserved

/-- The queue entry of an engine instruction at `pc`: the values of the scalar fields at dispatch, the level, the address and the
vector type (02 R70, 03 R93). -/
def entryOf (c : Core) (i : EngInstr) (pc : BitVec 16) (seq : Nat) : Entry :=
  { instr := i
    a := c.rd (i.word.extractLsb' 14 5), b := c.rd (i.word.extractLsb' 9 5), c := c.rd (i.word.extractLsb' 4 5)
    level := c.pl, epc := pc, seq, sew := c.vsew, grp := c.vgrp, fpk := c.vfpk }

/-! ## Waiting and memory (08) -/

/-- The wait set of a release is empty (08 R252, R253, table 8.3): with `lq` the lathe queue, with `fq` every forge operation; no
write of those engines or of the core waits in a port; with `peer`, every write to a peer is acknowledged. -/
def waitSetEmpty (s : State) (b : BenchId) (lq fq peer : Bool) : Bool :=
  let es := [Engine.core b] ++ (if lq then [Engine.lathe b] else []) ++ (if fq then [Engine.ladle b] else [])
  (!lq || (s.bench b).lathe.queue.isEmpty) && (!fq || (s.bench b).forge.ops.isEmpty)
    && es.all fun e => !s.portHolds e && (!peer || !s.unacked e)

/-- The core of bench `b` waits in the stall `w`: its clock runs, and it is not halted but for a STEP (01 R33; 02 R86). -/
def stalledIn (s : State) (b : BenchId) (w : Stall) : Prop :=
  s.departed = false ∧ s.coreHeld b = false ∧ (s.bench b).core.stall = some w

/-- The instruction has not completed: the core stands in stall `w` at the same PC, with the same registers, flags and loops. -/
def stays (s t : State) (b : BenchId) (w : Stall) : Prop :=
  let c := (s.bench b).core
  let d := (t.bench b).core
  d.stall = some w ∧ d.pc = c.pc ∧ d.loops = c.loops ∧ d.flags = c.flags ∧ regsKept c d ∧ (t.bench b).store = (s.bench b).store

/-- The request counts as a write: a write, or an atomic operation but ALD (09 R306). -/
def reqWrites (q : MemReq) : Bool :=
  match q.op with
  | .read => false
  | .write _ => true
  | .atomic aop _ _ _ => aop != 11

/-- Bytes of the ingot or yard at DPA `a` may be read (or written) at once by requester `q` under the guarded class: the address
is populated and its lot admits the request (09 R306), its channel is in service (13 R423), and a read meets no error. -/
def dramOk (s : State) (q : Requester) (a len : Nat) (write : Bool) : Bool :=
  decide (a < windowBase) && s.dramAllows q a write
    && (match s.route a with | some r => !s.outOfService r | none => false)
    && (write || (List.range ((a + len - 1) / 64 + 1 - a / 64)).all fun k =>
          !s.lineWatched (a / 64 + k) && (Sp.find s.mem.lineErr (a / 64 + k)).isNone)

/-- A translated access of `n` bytes goes to DPA `a` of this device's ingot or yard under the guarded class, whose stack answers at once (09
R285; 13 R414): the way of its translation for the core of bench `b`. -/
def coreReaches (s : State) (b : BenchId) (g : Way) (a n : Nat) (write : Bool) : Prop :=
  g.target = .dpa a ∧ g.watched = false ∧ 0 < n ∧ s.sleeps a = none
    ∧ dramOk s { hmk := s.benchHmk b, smask := g.smask, shop := some (shopOf b) } a n write = true

/-- Exactly the bytes of `data` from address `a` up are stored. -/
def stored (m m' : Memory) (a : Nat) (data : List Byte) : Prop :=
  (∀ k (h : k < data.length), m'.byte (a + k) = data[k]) ∧ ∀ x, (x < a ∨ a + data.length ≤ x) → m'.byte x = m.byte x

/-- The values of an atomic operation of `w` bits: the new value from the old one, the operand and the expected value (08 table
8.6). AFADD is the IEEE sum, rounded to nearest even. -/
structure AtomRow where
  instr : BenchId → FmtAtom → Instr
  aop : BitVec 4
  value : (w : Nat) → BitVec w → BitVec w → BitVec w → BitVec w

/-- The thirteen atomic operations. -/
def atomRows : List AtomRow :=
  [ ⟨.aswap, 0, fun _ _ o _ => o⟩, ⟨.aadd, 1, fun _ x o _ => x + o⟩, ⟨.aand, 2, fun _ x o _ => x &&& o⟩,
    ⟨.aor, 3, fun _ x o _ => x ||| o⟩, ⟨.axor, 4, fun _ x o _ => x ^^^ o⟩,
    ⟨.amin, 5, fun _ x o _ => if x.sle o then x else o⟩, ⟨.amax, 6, fun _ x o _ => if x.sle o then o else x⟩,
    ⟨.aminu, 7, fun _ x o _ => if x.ule o then x else o⟩, ⟨.amaxu, 8, fun _ x o _ => if x.ule o then o else x⟩,
    ⟨.acas, 9, fun _ x o e => if x = e then o else x⟩,
    ⟨.afadd, 10, fun w x o _ =>
      let f := if w = 32 then fp32 else fp64
      BitVec.ofNat w (f.round .near ((f.decode x.toNat).add .near (f.decode o.toNat)).1).1⟩,
    ⟨.ald, 11, fun _ x _ _ => x⟩, ⟨.ast, 12, fun _ _ o _ => o⟩ ]

/-- The fences with their scopes (08 table 8.2). -/
def fenceRows : List ((BenchId → FmtFence → Instr) × BitVec 3) :=
  [(.fenceB, 0), (.fenceS, 1), (.fenceH, 2), (.fenceD, 3), (.fenceP, 4)]

/-! ## Bells (11) -/

/-- A count meets a target (11 R343). -/
def met (c t : W32) : Bool := decide ((c - t).toNat < 2 ^ 31)

/-- Bell `n` takes `v`, and every other count is kept. -/
def bellTakes (s t : State) (n : BitVec 16) (v : W32) : Prop := ∀ q, t.bell q = if q = n then v else s.bell q

/-- The frame of a bell instruction that completes: nothing but bench `b`'s core and the belfry differs. -/
def bellStep (s t : State) (b : BenchId) (cyc : Nat) : Prop :=
  onlyBench { s with belfry := t.belfry } t b ∧ onlyCore (s.bench b) (t.bench b)
    ∧ coreKeeps (s.bench b).core (t.bench b).core ∧ timed s t b cyc ∧ fellThrough s t b 1
    ∧ (t.bench b).core.flags = (s.bench b).core.flags

/-- The value of RING and CHIME (11 R346). -/
def ringVal (c : Core) (rb : R5) (imm : BitVec 9) : W32 := (c.rd rb + imm.setWidth 64).setWidth 32

/-! ## Packets (14) -/

/-- The packets of `l` have gone, in order, to the ports of their routes: peer, type, what it carries, data (14 R434). -/
def packetsSent (s t : State) (l : List (PeerId × BitVec 4 × PktBody × List Byte)) : Prop :=
  let u := l.foldl (fun s k => s.sendTo k.1 k.2.1 k.2.2.1 k.2.2.2) s
  t.dray.ports = u.dray.ports ∧ t.out = u.out

/-! ## The lathe (04) -/

/-- The command of a format VV operation. -/
def vvCommand (op : VvOp) (b : BenchId) (f : FmtVV) (p : Pace) : Instr :=
  match op with
  | .vadd => .vadd b f p
  | .vsub => .vsub b f p
  | .vrsub => .vrsub b f p
  | .vand => .vand b f p
  | .vor => .vor b f p
  | .vxor => .vxor b f p
  | .vsll => .vsll b f p
  | .vsrl => .vsrl b f p
  | .vsra => .vsra b f p
  | .vmin => .vmin b f p
  | .vmax => .vmax b f p
  | .vminu => .vminu b f p
  | .vmaxu => .vmaxu b f p
  | .vmul => .vmul b f p
  | .vmulh => .vmulh b f p
  | .vmulhu => .vmulhu b f p
  | .vaddsat => .vaddsat b f p
  | .vaddsatu => .vaddsatu b f p
  | .vsubsat => .vsubsat b f p
  | .vsubsatu => .vsubsatu b f p
  | .vavg => .vavg b f p
  | .vavgu => .vavgu b f p
  | .vfrmul => .vfrmul b f p
  | .vshrr => .vshrr b f p
  | .vshrra => .vshrra b f p
  | .vclipnu => .vclipnu b f p
  | .vclipn => .vclipn b f p
  | .vfadd => .vfadd b f p
  | .vfsub => .vfsub b f p
  | .vfmul => .vfmul b f p
  | .vfdiv => .vfdiv b f p
  | .vfsqrt => .vfsqrt b f p
  | .vfminnum => .vfminnum b f p
  | .vfmaxnum => .vfmaxnum b f p
  | .vfmin => .vfmin b f p
  | .vfmax => .vfmax b f p
  | .vfabs => .vfabs b f p
  | .vfneg => .vfneg b f p
  | .vfma => .vfma b f p
  | .vfms => .vfms b f p
  | .vfnma => .vfnma b f p
  | .vfnms => .vfnms b f p
  | .vceq => .vceq b f p
  | .vcne => .vcne b f p
  | .vclt => .vclt b f p
  | .vcge => .vcge b f p
  | .vcltu => .vcltu b f p
  | .vcgeu => .vcgeu b f p
  | .vfceq => .vfceq b f p
  | .vfclt => .vfclt b f p
  | .vfcle => .vfcle b f p
  | .vfcun => .vfcun b f p
  | .vrsum => .vrsum b f p
  | .vrmax => .vrmax b f p
  | .vrmin => .vrmin b f p
  | .vrmaxu => .vrmaxu b f p
  | .vrminu => .vrminu b f p
  | .vfrsum => .vfrsum b f p
  | .vfrmax => .vfrmax b f p
  | .vfrmin => .vfrmin b f p
  | .mand => .mand b f p
  | .mor => .mor b f p
  | .mxor => .mxor b f p
  | .mandn => .mandn b f p
  | .mnot => .mnot b f p
  | .mset => .msetMask b f p
  | .mclr => .mclr b f p
  | .vmpop => .vmpop b f p
  | .vmfirst => .vmfirst b f p
  | .vmv => .vmv b f p
  | .vmerge => .vmerge b f p
  | .vext => .vext b f p
  | .vins => .vins b f p
  | .vid => .vid b f p

/-- The command of a vector memory operation. -/
def vmInstr (op : VmOp) (b : BenchId) (x : Moving FmtVM) : Instr :=
  match op with
  | .vld => .vld b x
  | .vst => .vst b x
  | .vlds => .vlds b x
  | .vsts => .vsts b x
  | .vgath => .vgath b x
  | .vscat => .vscat b x
  | .vgathFf => .vgathFf b x

/-- It runs to its end, or is stopped after `n` elements (04 R149). -/
def vmCommand (op : VmOp) (b : BenchId) (f : FmtVM) : Instr := vmInstr op b { f }
def vmStopped (op : VmOp) (b : BenchId) (f : FmtVM) (n : Nat) : Instr := vmInstr op b { f, stop := some n }

/-- The entry `e` of instruction `i` stands at the head of bench `b`'s lathe queue, and the lathe may begin it: its clock runs, the
queue is not frozen, nothing is waited for, and no earlier forge operation conflicts (05 R179). -/
def latheHeads (s : State) (b : BenchId) (i : EngInstr) (e : Entry) : Prop :=
  s.departed = false ∧ (s.bench b).lathe.queue.head? = some e ∧ e.instr = i ∧ s.latheReady b e = true

/-- The instruction runs to its end: nothing stops it on the way (04 R149), and no element group meets a second residue mismatch (R147). -/
def unhindered (p : Pace) : Prop := p.stop = none ∧ ∀ g, p.mism.count g ≤ 1

/-- Nothing outside bench `b` differs, but that its lathe awaits no response any more. -/
def onlyLathe (s t : State) (b : BenchId) : Prop := onlyBench (s.land (.lathe b)) t b

/-- The frame of a lathe instruction that completes and changes only its engine: nothing outside the bench but its lathe's requests, which
have ended, nothing of the bench but the lathe; its entry has left the queue and VPI is 0 (04 R146). -/
def latheStep (s t : State) (b : BenchId) : Prop :=
  onlyLathe s t b ∧ { t.bench b with lathe := (s.bench b).lathe } = s.bench b
    ∧ (t.bench b).lathe.queue = (s.bench b).lathe.queue.drop 1 ∧ (t.bench b).lathe.vpi = 0

/-- Of the lathe, only vector storage, its queue and the sticky FXSAT and FFLAGS differ. -/
def onlyVectors (l m : Lathe) : Prop :=
  { m with v := l.v, queue := l.queue, vpi := l.vpi, wait := l.wait, fxsat := l.fxsat, fflags := l.fflags } = l

/-- Of the lathe, only mask storage, its queue and FFLAGS differ. -/
def onlyMasks (l m : Lathe) : Prop :=
  { m with m := l.m, queue := l.queue, vpi := l.vpi, wait := l.wait, fflags := l.fflags } = l

/-- From VPI to VL, element `i` of width `w` of the group at `r` takes `val i`, and every other byte of vector storage is kept. -/
def elementsTake (l m : Lathe) (r : R5) (w : Nat) (val : Nat → Nat) : Prop :=
  (∀ i, l.vpi ≤ i → i < l.vl → m.elem r i w = val i % 2 ^ w)
    ∧ ∀ a, (a < elemAt r.toNat l.vpi w ∨ elemAt r.toNat l.vl w ≤ a) → m.v.byte a = l.v.byte a

/-- From `lo` to VL, bit `i` of mask register `k` takes `val i`, and every other mask bit is kept. -/
def maskTakes (l m : Lathe) (k lo : Nat) (val : Nat → Bool) : Prop :=
  ∀ j i, i < 32768 → m.maskBit j i = if j = k ∧ lo ≤ i ∧ i < l.vl then val i else l.maskBit j i

/-- A result under masking (04 R126): an inactive element keeps its value, or is written 0 with MZ = 1. -/
def masked (l : Lathe) (ms : BitVec 3) (mz : BitVec 1) (i : Nat) (val old : Nat) : Nat :=
  if l.active ms i then val else if mz = 1 then 0 else old

/-- The element operations of integers, as bit vectors of the element's width (04 R128). -/
def intRows : List (VvOp × ((w : Nat) → BitVec w → BitVec w → BitVec w)) :=
  [ (.vadd, fun _ a b => a + b), (.vsub, fun _ a b => a - b), (.vrsub, fun _ a b => b - a), (.vand, fun _ a b => a &&& b),
    (.vor, fun _ a b => a ||| b), (.vxor, fun _ a b => a ^^^ b), (.vsll, fun w a b => a <<< (b.toNat % w)),
    (.vsrl, fun w a b => a >>> (b.toNat % w)), (.vsra, fun w a b => a.sshiftRight (b.toNat % w)),
    (.vmin, fun _ a b => if a.sle b then a else b), (.vmax, fun _ a b => if b.sle a then a else b),
    (.vminu, fun _ a b => if a.ule b then a else b), (.vmaxu, fun _ a b => if b.ule a then a else b),
    (.vmul, fun _ a b => a * b), (.vmulh, fun w a b => BitVec.ofInt w (a.toInt * b.toInt / 2 ^ w)),
    (.vmulhu, fun w a b => BitVec.ofNat w (a.toNat * b.toNat / 2 ^ w)), (.vmv, fun _ _ b => b) ]

/-- The integer compares (04 table 4.5). -/
def cmpRows : List (VvOp × ((w : Nat) → BitVec w → BitVec w → Bool)) :=
  [ (.vceq, fun _ a b => a == b), (.vcne, fun _ a b => a != b), (.vclt, fun _ a b => a.slt b), (.vcge, fun _ a b => b.sle a),
    (.vcltu, fun _ a b => a.ult b), (.vcgeu, fun _ a b => b.ule a) ]

/-- The rounding increment of rshr under FXRND (04 R132): `q` is the floor and `rem` the remainder of a shift by `d` bits. -/
def rndUp (mode : BitVec 2) (q rem : Int) (d : Nat) : Bool :=
  if mode = 0 then decide (2 ^ d ≤ 2 * rem)
  else if mode = 1 then decide (2 ^ d < 2 * rem) || (decide (2 * rem = 2 ^ d) && decide (q % 2 = 1))
  else if mode = 2 then false
  else decide (rem ≠ 0) && decide (q % 2 = 0)

/-- The bit that a mask instruction writes (04 R130). -/
def maskRows : List (VvOp × (Bool → Bool → Bool)) :=
  [ (.mand, fun a b => a && b), (.mor, fun a b => a || b), (.mxor, fun a b => xor a b), (.mandn, fun a b => a && !b),
    (.mnot, fun a _ => !a), (.mset, fun _ _ => true), (.mclr, fun _ _ => false) ]

/-- The integer reductions of a list of elements of width `w` with an initial value (04 R140). -/
def reduceRows : List (VvOp × (Nat → Nat → List Nat → Nat)) :=
  [ (.vrsum, fun w i xs => (i + xs.sum) % 2 ^ w),
    (.vrmaxu, fun _ i xs => xs.foldl Nat.max i), (.vrminu, fun _ i xs => xs.foldl Nat.min i),
    (.vrmax, fun w i xs => (BitVec.ofInt w ((xs.map fun x => (BitVec.ofNat w x).toInt).foldl Max.max (BitVec.ofNat w i).toInt)).toNat),
    (.vrmin, fun w i xs => (BitVec.ofInt w ((xs.map fun x => (BitVec.ofNat w x).toInt).foldl Min.min (BitVec.ofNat w i).toInt)).toNat) ]

/-- The element access of a vector memory instruction at element `i` reaches the bench store unhindered (04 R142, R143; 03 R93): SP = 0,
an aligned address, no guarded byte at the level of dispatch, and no poisoned block under a load. -/
def elemOk (s : State) (b : BenchId) (op : VmOp) (e : Entry) (f : FmtVM) (i : Nat) : Bool :=
  let l := (s.bench b).lathe
  let n := sewBits e.sew / 8
  let a := (vmAddr op e f l i).toNat
  a % n == 0 && !s.guarded b e.level (a % 0x200000) n && (op.stores || !(s.bench b).storePoisoned (a % 0x200000) n)

/-- The elements that a memory instruction still has to access, in index order. -/
def remaining (l : Lathe) (ms : BitVec 3) : List Nat := (List.range l.vl).filter fun i => decide (l.vpi ≤ i) && l.active ms i

/-! ## Forge and ladle (05-07) -/

/-- Entry `e` of instruction `i` heads bench `b`'s forge queue, and its executor may begin it: the clock runs, the queue is not frozen,
and no operation dispatched earlier conflicts (05 R175, R178). -/
def forgeHeads (s : State) (b : BenchId) (i : EngInstr) (e : Entry) : Prop :=
  s.departed = false ∧ (s.bench b).forge.queue.head? = some e ∧ e.instr = i ∧ s.forgeOn b = true
    ∧ (s.bench b).freeToBegin e = true

/-- The array holds nothing, and its first operation after a long idle time has its grant (05 R175; 15 table 15.4). -/
def arrayIdle (s : State) (b : BenchId) : Prop :=
  let y := (s.bench b).forge
  y.array = none ∧ y.arrayNext = none ∧ y.arrayHeld = false ∧ s.forgeParked b = false

/-- The ladle holds nothing. -/
def ladleIdle (s : State) (b : BenchId) : Prop :=
  let y := (s.bench b).forge
  y.ladle = none ∧ y.ladleNext = none ∧ y.ladleHeld = false

/-- Steps that a lane has taken before heat `n` of an operation: 64 for each promotion under RND 2, none otherwise (06 R204). -/
def laneAt (x : Bench) (g : ArrCtl) (n j : Nat) : W32 := riddleSteps (if g.stochastic then 64 * n else 0) (x.forge.lane j)

/-- The bench with its lanes as they stand before heat `n` of an operation. -/
def lanesAt (x : Bench) (g : ArrCtl) (n : Nat) : Bench :=
  { x with forge := { x.forge with lanes := (List.range 128).map (laneAt x g n) } }

/-- Element `idx` of a tile of an array operation, from its value `v`, after every heat of every sweep in order (06 R194, R198). -/
def afterHeats (x : Bench) (e : Entry) (wt : Bool) (idx : Nat) (v : W32) : W32 :=
  let g := e.instr.ctl
  let hs := (List.range (sweepsOf g.fmt)).flatMap fun sw => (List.range (heatsPer g e.k)).map fun h => (sw, h)
  hs.foldl (fun v p =>
    let o : ArrayOp := { entry := e, wt, sweep := p.1, heats := p.2 }
    (lanesAt x g o.index).heatElem o idx v) v

/-- Of the bench, an array operation changes tiles with their residues, lanes, the queue, the array's idle time and a used grant, and
nothing else. -/
def arrayFrame (x y : Bench) : Prop :=
  { y with forge := x.forge } = x
    ∧ { y.forge with
        tiles := x.forge.tiles, residues := x.forge.residues, lanes := x.forge.lanes, queue := x.forge.queue, lastArray := x.forge.lastArray
        granted := x.forge.granted } = x.forge
    ∧ y.forge.queue = x.forge.queue.drop 1

/-- No row that a drain reads as a fused operand shares a byte with a row that it writes (07 R224). -/
def drainApart (d : Drain) : Prop :=
  d.fuse = 0 ∨ ∀ i j k m, i < 64 → j < 64 → k < d.rowBytes → m < d.n * d.fw →
    (d.dstAt i + k) % 0x200000 ≠ (d.fusedAt j + m) % 0x200000

/-- No fused row of a drain reads as poisoned. -/
def fusedClean (x : Bench) (d : Drain) : Prop := ∀ i, i < 64 → x.fusedPoisoned d i = false

/-- DRAIN.C leaves 0 in what was drained, DRAIN leaves every tile (07 R225). -/
def drainedTiles (x y : Forge) (d : Drain) : Prop :=
  ∀ q k, k < 8192 → y.tile q k = if d.clear = true ∧ (q = d.t ∨ d.wide = true ∧ q = d.t + 1) then 0 else x.tile q k

/-! ## Translation (09) -/

/-- A command of a clocked unit acts: no rail has departed and the root PLL runs (15 R447). -/
def clockOn (s : State) : Prop := s.departed = false ∧ s.rootOn = true

/-- No cache that serves the engine holds a leaf that admits the access (09 R281, R282). -/
def cacheMiss (s : State) (e : Engine) (h : BitVec 12) (dva : W64) (acc : Acc) : Prop :=
  ∀ n ∈ engineCaches e, ∀ x ∈ s.tcache n, x.serves h (dva.toNat / 65536) acc = false

/-- A cached leaf of hallmark `h` covers page `p`. -/
def TCovers (x : TEntry) (h : BitVec 12) (p : Nat) : Prop := x.hmk = h ∧ x.page ≤ p ∧ p < x.page + x.pages

/-- The bytes of a record of four words (09 table 9.8; 12 tables 12.7, 12.9). -/
def recordBytes (ws : List W64) : List Byte := ws.flatMap fun w => leBytes 8 w.toNat

/-- A record ring with its code of vector source. -/
def recWritten (s t : State) (k : RecRing) (f : FnId) (words : List W64) : Prop :=
  let n := s.reg ⟨k.tail, f.val, 0⟩
  let log := log2At4 (s.fld k.cfg f.val 19 16)
  let a := s.base52 k.lo k.hi f.val 12 + 32 * (n.toNat % 2 ^ log)
  t.reg ⟨k.tail, f.val, 0⟩ = n + 1
    ∧ t.reg ⟨k.head, f.val, 0⟩ = s.reg ⟨k.head, f.val, 0⟩
    ∧ (s.linkUp (s.linkOf f.val) = true → stored s.mem.host t.mem.host a (recordBytes words))
    ∧ (s.linkUp (s.linkOf f.val) = false → t.mem.host = s.mem.host
        ∧ Sp.get (fun _ => []) t.portq (s.linkOf f.val).val =
            Sp.get (fun _ => []) s.portq (s.linkOf f.val).val ++ [.write none (BitVec.ofNat 6 f.val) none a (recordBytes words)])
    ∧ (s.fld k.cfg f.val 30 30 = 1 → ∃ src, (s.fld k.cfg f.val 10 0, src) ∈ (t.fn f.val).due)
    ∧ (s.fld k.cfg f.val 30 30 = 0 → (t.fn f.val).due = (s.fn f.val).due)

/-- PHASE of record `n` in a ring of 2^`log` records: 1 in the first pass, and it changes with each (09 R294). -/
def phaseBit (n : W32) (log : Nat) : W64 := if n.toNat / 2 ^ log % 2 = 0 then 0x8000000000000000#64 else 0

/-! ## The ingot and the yard (13) -/

/-- Channel number `c` of yard group `g`. -/
def yardChan (g : Fin 8) (c : Fin 32) : Nat := 128 + 32 * g.val + c.val

/-- The band that a temperature in degrees Celsius lies in: 0 to 3 for bands 1 to 4 (13 table 13.4). -/
def bandOf (t : Int) : Nat := if t ≤ 50 then 0 else if t ≤ 70 then 1 else if t ≤ 85 then 2 else 3

/-- Nothing but the controllers' services, the records and their registers differs: the memories and the benches stay. -/
def memKept (s t : State) : Prop :=
  t.mem.dram = s.mem.dram ∧ t.mem.watched = s.mem.watched ∧ t.mem.lineErr = s.mem.lineErr ∧ t.mem.lots = s.mem.lots
    ∧ t.mem.shopCaches = s.mem.shopCaches ∧ t.mem.host = s.mem.host ∧ t.benches = s.benches ∧ t.xlat = s.xlat

/-- A channel can take a slice in its refresh interval. -/
def sliceFree (s : State) (c : Nat) : Bool :=
  s.chanUp c && !s.mem.serv.sliced.contains c && (decide (c < 128) || s.mem.serv.retrain.contains c)

/-- The channel of an address, in the state's layout. -/
def chanOf (s : State) (a : Nat) : Option Nat := (s.route a).map (·.chan)

/-- A request is answered: at once, or when the stack in self-refresh serves the queue of its channel (13 R414). -/
def servedWith (s t : State) (q : MemReq) (st : ExtStatus) (d : List Byte) : Prop :=
  match s.sleeps q.dpa with
  | none => t.out = s.out ++ [.served q.dpa st d] ∧ t.held = s.held
  | some c => t.out = s.out ∧ t.held = s.held ++ [⟨c, .out (.served q.dpa st d)⟩]

/-! ## Carters and hoppers (10) -/

/-- The feed works on run `r` and may go on: its clock runs, its carter is in service, and with BAR no earlier run is left (10 R323). -/
def feedRuns (s : State) (c : CarterId) (loc : Bool) (r : Run) : Prop :=
  s.departed = false ∧ s.feedOn c loc = true ∧ s.curRun c loc = some r ∧ (r.st = .running ∨ r.st = .hop)
    ∧ (wordBits r.words 0 53 53 = 1 → ((s.carter c).runs loc).head? = some r)

/-- The feed's current run is now `r`. -/
def runNow (s t : State) (c : CarterId) (loc : Bool) (r : Run) : Prop :=
  (t.carter c).runs loc = replaceCur r ((s.carter c).runs loc)

/-- Where the index of element `n` lies in the bench store of the carter's own bench (10 R316). -/
def listAt (r : Run) (n : Nat) : Nat :=
  ((r.words.getD 4 0) + BitVec.ofNat 64 (n * (if wordBits r.words 3 17 17 = 1 then 8 else 4))).toNat % 0x200000

/-- The index of element `n`. -/
def listIndex (s : State) (b : BenchId) (r : Run) (n : Nat) : W64 :=
  indexOf ((s.bench b).readStore (listAt r n) (if wordBits r.words 3 17 17 = 1 then 8 else 4))

/-- Source and destination addresses of element `n` (10 R315, R316). -/
def elemSource (s : State) (b : BenchId) (r : Run) (n : Nat) : W64 :=
  if dType r.words = 1 then r.words.getD 1 0 + listIndex s b r n else dAddr r.words (r.words.getD 1 0) (dSstr r.words) n
def elemTarget (s : State) (b : BenchId) (r : Run) (n : Nat) : W64 :=
  if dType r.words = 2 then r.words.getD 2 0 + listIndex s b r n else dAddr r.words (r.words.getD 2 0) (dDstr r.words) n

/-- The data of element `n`: the source's bytes, or the pattern of a FILL. -/
def elemData (s : State) (b : BenchId) (r : Run) (n : Nat) : List Byte :=
  let len := dSize r.words
  if dType r.words = 3 then (List.range len).map fun j => (r.words.getD 4 0).extractLsb' (8 * (j % 8)) 8
  else (s.bench (benchOf (dSb r.words))).readStore ((elemSource s b r n).toNat % 0x200000) len

/-- Element `n` of a run between bench stores meets no check: its addresses are aligned, no stack guard closes a byte, and no block that
it reads is poisoned (10 R319, R320). -/
def elemClear (s : State) (b : BenchId) (r : Run) (n : Nat) : Prop :=
  let len := dSize r.words
  let src := benchOf (dSb r.words)
  let dst := benchOf (dDb r.words)
  let i := if wordBits r.words 3 17 17 = 1 then 8 else 4
  (elemTarget s b r n).toNat % len = 0 ∧ s.guardedAll dst ((elemTarget s b r n).toNat % 0x200000) len = false
    ∧ (dType r.words ≠ 3 → (elemSource s b r n).toNat % len = 0
        ∧ s.guardedAll src ((elemSource s b r n).toNat % 0x200000) len = false
        ∧ (s.bench src).storePoisoned ((elemSource s b r n).toNat % 0x200000) len = false)
    ∧ (dType r.words = 1 ∨ dType r.words = 2 → s.guardedAll b (listAt r n) i = false
        ∧ (s.bench b).storePoisoned (listAt r n) i = false)

/-- No byte that elements of the run write is one that they read (10 R322). -/
def runApart (s : State) (b : BenchId) (r : Run) : Prop :=
  let len := dSize r.words
  let i := if wordBits r.words 3 17 17 = 1 then 8 else 4
  ∀ n m k j, n < dCount r.words → m < dCount r.words → k < len →
    let w := wrapStore ((elemTarget s b r n).toNat % 0x200000 + k)
    (dType r.words ≠ 3 → benchOf (dSb r.words) = benchOf (dDb r.words) → j < len →
        wrapStore ((elemSource s b r m).toNat % 0x200000 + j) ≠ w)
      ∧ (dType r.words = 1 ∨ dType r.words = 2 → b = benchOf (dDb r.words) → j < i → wrapStore (listAt r m + j) ≠ w)

/-- The entry of a stream that ends with a status: its record waits, or it has gone; any status but OK and FLUSHED halts the stream (12
R385, R388). -/
def ended (s t : State) (r : RingId) (e : SEntry) (status : Byte) (code : Nat) (addr : W64) : Prop :=
  let asks := e.type = 1 ∨ e.type = 5 ∨ status ≠ 0 ∨ e.cqe = true
  (asks → (t.ring r).recs = (s.ring r).recs ++ [completionRec e status.toNat code addr 0]
      ∧ ∃ x ∈ (t.ring r).entries, x.n = e.n ∧ x.st = .ended)
    ∧ (¬ asks → (t.ring r).recs = (s.ring r).recs ∧ ∀ x ∈ (t.ring r).entries, x.n ≠ e.n)
    ∧ (status ≠ 0 ∧ status ≠ stFlushed → t.ringHalted r = true)

/-- A bell is rung by a unit under hallmark `h`: an admitted one gains `v`, and no other count changes (11 R347). -/
def rung (s t : State) (h : BitVec 12) (n : BitVec 16) (v : W32) : Prop :=
  s.bellAllows h n = true → bellTakes s t n (s.bell n + v)

/-- The control block of a bench carter's local ring is open to it: neither guarded nor poisoned (10 R312; 03 R93). -/
def blockOpen (s : State) (c : CarterId) (b : BenchId) (off len : Nat) : Prop :=
  s.guardedAll b ((s.carterBase c + off) % 0x200000) len = false
    ∧ (s.bench b).storePoisoned ((s.carterBase c + off) % 0x200000) len = false

/-- Bytes of a local ring's memory. -/
def ringBytes (s : State) (c : CarterId) (b : BenchId) (off len : Nat) : List Byte :=
  (s.bench b).readStore ((s.carterBase c + off) % 0x200000) len

/-- Exactly `data` is written at offset `off` of the control block. -/
def blockWritten (s t : State) (c : CarterId) (b : BenchId) (off : Nat) (data : List Byte) : Prop :=
  ∀ a, (t.bench b).store.byte a = ((s.bench b).store.setBytes wrapStore ((s.carterBase c + off) % 0x200000) data).byte a

/-- A HOPCTL of operation `op` is the current run, its hopper admits it (10 R335, R339), and no take or HOPCTL that was received earlier
waits (R334). -/
def hopctlRuns (s : State) (c : CarterId) (loc : Bool) (r : Run) (op : Nat) : Prop :=
  feedRuns s c loc r ∧ dType r.words = 4 ∧ r.claim = none ∧ wordBits r.words 4 63 60 = op
    ∧ s.hopRefuses (hopperOf (wordBits r.words 3 39 30)) r.hmk = none
    ∧ s.fld .hopCfg (hopperOf (wordBits r.words 3 39 30)).val 29 29 = 0
    ∧ ((s.hopper (hopperOf (wordBits r.words 3 39 30))).takers = []
      ∨ (s.hopper (hopperOf (wordBits r.words 3 39 30))).takers.head? = some (c, loc))

/-- Hopper `h` stands as `x`; of the rest, only the carter's run and the hopper's contents differ. -/
def hopperNow (s t : State) (h : HopperId) (x : Hopper) : Prop :=
  t.hopper h = x ∧ { t with carters := s.carters, hoppers := s.hoppers } = s

/-! ## Streams and kernels (11, 12) -/

/-- An error record waits for the PF's ring and for that of its own function (12 R389). -/
def reported (s t : State) (r : ErrRec) : Prop :=
  Sp.get (fun _ => []) t.errq 0 = Sp.get (fun _ => []) s.errq 0 ++ [r]
    ∧ Sp.get (fun _ => []) t.errq r.fn.toNat = Sp.get (fun _ => []) s.errq r.fn.toNat ++ [r]

/-- Of the stream's entries that satisfy `p`, `e` is the one that begins next, and its header's reserved field is 0 (11 R355; 12
R385). -/
def begins (s : State) (r : RingId) (p : SEntry → Bool) (e : SEntry) : Prop :=
  clockOn s ∧ (s.ring r).entries.find? (fun x => p x && s.mayBegin r x) = some e ∧ s.entry r e.n = some e
    ∧ wordBits e.words 0 57 32 = 0

/-- Entry `e` has begun, and `f` gives what it has become; the other entries stay. -/
def begunAs (s t : State) (r : RingId) (e : SEntry) (f : SEntry → SEntry) : Prop :=
  (t.ring r).entries = (s.ring r).entries.map fun y => if y.n = e.n then f y else y

/-- What no entry of a stream but a launch or a copy touches. -/
def devicesKept (s t : State) : Prop :=
  t.benches = s.benches ∧ t.mem = s.mem ∧ t.carters = s.carters ∧ t.kernels = s.kernels ∧ t.dray = s.dray

/-- The counts of a shift are latched and restart (11 R372; 13 R425; 15 R461). -/
def shiftLatched (s t : State) : Prop :=
  let n (m : Sparse Nat) (c : Nat) : Nat := Sp.get (fun _ => 0) m c
  t.reg ⟨.fmnShiftNum, 0, 0⟩ = s.reg ⟨.fmnShiftNum, 0, 0⟩ + 1
    ∧ (∀ c, Sp.get (fun _ => ⟨0, 0, 0⟩) t.mem.shift c
        = ⟨n s.mem.corrected c, n s.mem.uncorrected c, n s.mem.serv.slices c⟩)
    ∧ (∀ c, n t.mem.corrected c = 0 ∧ n t.mem.uncorrected c = 0 ∧ n t.mem.serv.slices c = 0) ∧ t.mem.serv.reported = []
    ∧ t.sheler.shift = s.sheler.droops ∧ t.sheler.droops = [] ∧ t.benches = s.benches ∧ t.mem.dram = s.mem.dram

/-- The scalar registers that table 11.6 gives the bench of rank `k` of a launch with body `w`. -/
def launchReg (w : List W64) (k q : Nat) : W64 :=
  if q = 1 then BitVec.ofNat 64 k
  else if q = 2 then BitVec.ofNat 64 (wordBits w 1 63 48 * 2 ^ 32 + wordBits w 2 48 40)
  else if 3 ≤ q ∧ q ≤ 10 then w.getD (9 + q) 0 else 0

/-- A bench of an ending kernel has nothing left: its core stands at an interrupt point, its queues are empty and not frozen, and its
local rings are disabled and still (11 R360). -/
def benchDone (s : State) (n : SlotId) (b : BenchId) : Prop :=
  let x := s.bench b
  x.slot = some n ∧ (x.core.running = true → x.atPoint = true) ∧ x.lathe.queue = [] ∧ x.forge.ops = []
    ∧ x.lathe.frozen = false ∧ x.forge.frozen = false
    ∧ ∀ c ∈ benchCarters b, s.ringStill c = true ∧ s.carterFld c 2 31 31 = 0 ∧ c ∉ (s.kernel n).rings

/-- Bench `b` has no entry of the part record of TYPE 3 or 4. -/
def noEntries (s : State) (b : BenchId) : Prop := s.benchEntries 3 b = [] ∧ s.benchEntries 4 b = []

/-- The bench as a bench reset leaves it (17 R506): only its store mode and its exclusion stay, and XKEY is a new draw. -/
def benchFresh (s t : State) (b : BenchId) : Prop :=
  (∃ o, t.bench b = { openStore := o, excluded := (s.bench b).excluded, core := { xkeyBench := b, xkeyDraw := s.draws } })
    ∧ ∀ k, k ≠ b → t.bench k = s.bench k

/-! ## The host port (12) -/

/-- The host port acts: no rail has departed, and PERST_N is released (17 R483). -/
def portOn (s : State) : Prop := s.departed = false ∧ s.sec.perst = false

/-- Host memory after the writes among what waited in the port have left it, in order (12 R394). -/
def afterHeld (m : Memory) (l : List PortItem) : Memory :=
  l.foldl (fun m i => match i with | .write _ _ q a d => m.setBytes (hostKey q) a d | .msix .. => m) m

/-- The load of bench `b`'s core at `p` awaits its response, and the request that has left under `tag` is its own and the only one of that
tag (08 R255). -/
def loadWaits (s : State) (b : BenchId) (acc : Access) (p : Piece) (tag : Nat) (rd : R5) (sx : Bool) : Prop :=
  clockOn s ∧ stalledIn s b (.response acc [p]) ∧ acc.kind = .load rd sx ∧ p.cut = false
    ∧ (∀ r ∈ s.xlat.replies, r.flight.who.eng ≠ .core b)
    ∧ ∃ f ∈ s.xlat.flights, f.isOf { eng := .core b } p.dva = true ∧ f.way = p.way ∧ f.len = p.len
        ∧ ∀ g ∈ s.xlat.flights, g.tag = tag ↔ g = f

/-- Such a load from host memory at `a`, under the requester ID of function `n` and PASID `q`, whose link is up (09 R284; 12 R392). -/
def hostRead (s : State) (b : BenchId) (acc : Access) (p : Piece) (tag : Nat) (n : BitVec 6) (q : Option (BitVec 20)) (a : Nat) (rd : R5)
    (sx : Bool) : Prop :=
  loadWaits s b acc p tag rd sx ∧ p.target = .host n q a ∧ s.linkUp (s.linkOf n.toNat) = true

/-- Bytes `off` to `off + len - 1` of BAR4 on link `k` lie in one aligned unit of window `w`, of the guarded class (12 R381). -/
def barUnit (s : State) (k : LinkId) (off len : Nat) (w : Fin 64) : Prop :=
  portOn s ∧ s.linkUp k = true ∧ s.ready = true ∧ s.rootOn = true ∧ s.awin k off = some w ∧ s.awinWatched w = false
    ∧ off + len ≤ s.awinEnd w ∧ 0 < len ∧ s.awinDpa w off % 64 + len ≤ 64

/-! ## Dray links and the alloy engine (14) -/

/-- Nothing but the link layer of port `p`, what has been sent, and the port's own registers differs. -/
def portOnly (s t : State) (p : PortId) : Prop :=
  (∀ q, q ≠ p → t.port q.val = s.port q.val) ∧ t.benches = s.benches ∧ t.mem = s.mem ∧ t.dray.pri = s.dray.pri
    ∧ t.dray.alt = s.dray.alt ∧ t.dray.quarters = s.dray.quarters

/-- Quarter `q` may read its ring's control block: it is on, its ring is enabled, its slot's kernel runs, it holds no collective, and its
doorbell bell has changed (10 R313; 14 R440). -/
def quarterWakes (s : State) (q : HallId) : Prop :=
  let x := s.quarter q
  let bell := BitVec.ofNat 16 (s.fld .alyQRingCfg q.val 15 0)
  clockOn s ∧ s.quarterOn q = true ∧ s.fld .alyQRingCfg q.val 31 31 = 1 ∧ s.ringsBegin x.slot = true ∧ x.coll = none
    ∧ x.ringWait = none
    ∧ (x.seen ≠ s.bell bell ∨ x.reread = true) ∧ s.bellAllows (s.quarterHmk q) bell = true

/-- The collective `c` of quarter `q` ends with a code: DISTRESS goes for reason `why` as `sent` says, and the collective has failed; once no
request of the quarter is in flight its ring's memory takes the error, the ring stops and the collective is gone (10 R324; 14 R443,
R444). -/
def collEnds (s t : State) (q : HallId) (c : Coll) (code : Byte) (sent : List (PeerId × BitVec 4 × PktBody × List Byte)) : Prop :=
  ∃ u, t = u.collEnd q ∧ packetsSent s u sent ∧ u.benches = s.benches ∧ u.mem = s.mem
    ∧ (u.quarter q).coll = some { c with failed := some (code, 0, 0), wait := none, todo := [], inbox := [], got := [] }
    ∧ (u.collQuiet q = false → t = u)
    ∧ (u.collQuiet q = true → ((t.quarter q).coll = none ∧ (t.quarter q).err = true)
        ∨ ∃ w a, (t.quarter q).ringWait = some ⟨.stop, w, a⟩)

/-- A DISTRESS packet to peer `p` (14 R444). -/
def distressTo (p : PeerId) (cid : BitVec 16) (origin : PeerId) (why : BitVec 8) : PeerId × BitVec 4 × PktBody × List Byte :=
  (p, 8, .distress cid origin why, [])

/-! ## Sheler and power (15) -/

/-- Sheler decides: no rail has departed, PERST_N is released, and no trip stands (15 R456). -/
def watchOn (s : State) : Prop := s.departed = false ∧ s.sec.perst = false ∧ s.sheler.thermtrip = false

/-- The highest quench level whose entry condition T_f = `t`, in quarter degrees, meets (15 table 15.3). -/
def quenchOf (t : Int) : Nat :=
  if 100 * 4 ≤ t then 4 else if 98 * 4 ≤ t then 3 else if 92 * 4 < t then 2 else if 85 * 4 < t then 1 else 0

/-- No engine waits for anything outside it, and nothing has come for one. -/
def nothingWaits (s : State) : Prop :=
  s.held = [] ∧ s.late = [] ∧ s.xlat.replies = []
    ∧ (∀ b, (s.bench b).core.stall = none ∧ (s.bench b).lathe.wait = none ∧ (s.bench b).forge.handing = none)
    ∧ (∀ c, (s.carter c).loc = [] ∧ (s.carter c).fore = [] ∧ (s.carter c).ringWait = none)
    ∧ ∀ q, (s.quarter q).coll = none ∧ (s.quarter q).ringWait = none

/-- What a thermal trip leaves: no clock, THERMTRIP_N asserted, SHL_TRIP with the sensor and its reading, and memories that have lost
their contents (15 R456). -/
def tripped (s t : State) (sensor : Byte) (temp : BitVec 12) : Prop :=
  t.rootOn = false ∧ (∀ b, t.aclock b = false) ∧ t.sheler.thermtrip = true ∧ t.sheler.tripSeen = some (sensor, temp)
    ∧ t.reg ⟨.shlTrip, 0, 0⟩ = 1#1 ++ 0#7 ++ sensor ++ 0#4 ++ temp ∧ (∀ a, t.mem.dram.byte a = 0) ∧ t.benches = s.benches

/-- Rule `n` is the only enabled rule, no rule acts, and its comparison holds; it sets a floor, after one evaluation (15 R463). -/
def onlyRule (s : State) (n : Nat) : Prop :=
  n < 64 ∧ s.sheler.acting = [] ∧ s.ruleHolds n = true ∧ (∀ m, m < 64 → m ≠ n → (s.ruleLo m).getLsbD 31 = false)
    ∧ bits (s.ruleHi n) 15 12 = 1 ∧ bits (s.ruleHi n) 31 16 ≤ 1 ∧ 1 ≤ bits (s.ruleHi n) 11 0 ∧ bits (s.ruleHi n) 11 0 ≤ 4

/-! ## Registers (16) -/

/-- Some registers whose writes act by their type codes alone. -/
def plainKinds : List RegKind :=
  [.pwrLimit, .pwrGov, .fmnCfg, .fmnShiftCfg, .dryE2e, .xltFquota, .xltFteSel, .hmkLotSel, .belGrpSel, .belCntSel,
   .benXjBase, .benPguard, .benSguardJ, .benXdeleg, .benBp, .benFenceTmo]

/-- Some moulded registers that any state may pour (16 table 16.2). -/
def mouldKinds : List RegKind := [.pexAwinCfg, .pexAwinOff, .pexAwinLen, .pexAwinLot, .xltHctBaseLo, .xltHctBaseHi]

/-- Register `r` takes `v`, and every other register keeps its value. -/
def regTakes (s t : State) (r : Reg) (v : W32) : Prop := t.reg r = v ∧ ∀ q : Reg, q.off ≠ r.off → t.reg q = s.reg q

/-! ## Resets, start-up and service paths (17, 18) -/

/-- After a reset of everything: every register but those of `kept` holds its reset value, every unit its reset state, every bench has drawn a
new secret (03 R97), and no clock runs.
What waits to be commanded, and host memory, stay. -/
def restarted (s t : State) (kept : Nat → Bool) : Prop :=
  (∀ r : Reg, kept r.off = false → t.reg r = r.reset) ∧ (∀ b, t.bench b = Bench.fresh b s.draws) ∧ t.rootOn = false ∧ t.departed = false ∧ t.sec.perst = true
    ∧ t.sec.current = [] ∧ t.sec.seed = [] ∧ t.rings = [] ∧ t.kernels = [] ∧ t.fns = [] ∧ t.pending = s.pending ∧ t.mem.host = s.mem.host

/-- The mailbox serves the host: the device is out of PERST_N and has not tripped, no command runs, no runtime has stopped, and the PF is a
bus master (17 R497, R503). -/
def mailboxOpen (s : State) : Prop :=
  watchOn s ∧ s.fld .secMboxStat 0 31 31 = 0 ∧ s.runtimeStopped = false ∧ (s.fn 0).busMaster = true

/-- A mailbox command has ended with `status`. -/
def answered (t : State) (status : Nat) : Prop := t.fld .secMboxStat 0 31 31 = 0 ∧ t.fld .secMboxStat 0 3 0 = status

/-- The page of a mailbox request (17 R497). -/
def requestPage (s : State) : Nat := s.fld .secMboxAddrHi 0 19 0 * 0x100000000 + s.fld .secMboxAddrLo 0 31 12 * 4096

/-- A mailbox command returns `d`: in the buffer, with its length in word 2 of the request page; a buffer too small fails with DMA. -/
def returned (s t : State) (m : Mbox) (d : List Byte) : Prop :=
  (d.length ≤ m.cap → answered t 0
      ∧ t.mem.host = (s.mem.host.setBytes id m.obj d).setBytes id (requestPage s + 16) (leBytes 8 d.length))
    ∧ (m.cap < d.length → answered t 8 ∧ t.mem.host = s.mem.host)

/-- A part record as the host stores it (17 table 17.3). -/
def recordBlob (helper : List Byte) (es : List (BitVec 128)) (sig : List Byte) : List Byte :=
  leBytes 4 0x50524543 ++ leBytes 4 es.length ++ helper ++ es.flatMap (fun e => leBytes 16 e.toNat) ++ leBytes 2 sig.length ++ sig

/-- What an attestation covers (17 R501). -/
def attested (s : State) (nonce : List Byte) : List Byte :=
  nonce ++ leBytes 4 (s.regVal ⟨.secIdent, 0, 0⟩).toNat ++ s.measBytes ++ leBytes 4 (s.regVal ⟨.secState, 0, 0⟩).toNat

/-- The attestation response for a nonce. -/
def attestation (s : State) (nonce : List Byte) : List Byte :=
  attested s nonce ++ Config.falconSign s.sec.seed (shake256 (attested s nonce) 64) (s.draws + 1)

/-- The current part record, signed with the identity key (17 R491). -/
def signedRecord (s : State) : List Byte :=
  let d := leBytes 4 0x50524543 ++ leBytes 4 s.sec.entries.length ++ s.sec.helper ++ s.sec.entries.flatMap fun e => leBytes 16 e.toNat
  let sig := Config.falconSign s.sec.seed (shake256 d 64) s.draws
  d ++ leBytes 2 sig.length ++ sig

/-! ## Invariants -/

/-- A core stands at one of the three levels, with at most four active loops (02 R74; 03 R89). -/
def coreLegal (x : Bench) : Prop := x.core.pl ≠ 3 ∧ x.core.loops.length ≤ 4

/-- Every core is legal, so is every core that a preempted kernel has saved, and no kernel starts above Journeyman (11 R357). -/
def legalLevels (s : State) : Prop :=
  (∀ b, coreLegal (s.bench b))
    ∧ ∀ n, wordBits (s.kernel n).words 2 5 4 ≤ 1 ∧ ∀ k, coreLegal (Sp.get (fun _ => ({} : Bench)) (s.kernel n).images k)

/-- The device's memory and the model's views of host and peer memory are in canonical form. -/
def memoryCanonical (s : State) : Prop := s.mem.dram.wf = true ∧ s.mem.host.wf = true ∧ s.mem.peer.wf = true

/-- Registers that the manual gives a reset value other than 0, and it (00 R13; the reset columns of chapters 02 to 16). -/
def resetRows : List (RegKind × W32) :=
  [(.benXcmpLo, 0xFFFFFFFF), (.benXcmpHi, 0xFFFFFFFF), (.benFenceTmo, 16), (.cruRchkCfg, 16), (.xltFquota, 0x8FF), (.crtTmo, 16),
   (.fmnShiftCfg, 16384), (.fmnBenchCtl, 0x90000000), (.pexFmap, 0x02404040), (.pexLinkCfg, 114)] ++
  [(.ingCfg, 0x00104010), (.yrdRetrain, 0x04000004), (.yrdReliefCtl, 16), (.dryE2e, 0x00400008), (.alyCfg, 16), (.shlFilt, 0x02140032),
   (.shlMargin, 30), (.pwrLimit, 1900), (.secIdent, 0x02560011), (.pwrGov, 0x601E1480)]

end Sys2Proof.Claims
end

