-- ==== Sys2Proof/Certificates/Slice0/Obligations.lean ====
section
/-! DEFINITION. The statements for the provers. -/

open Sys2Proof Sys2Proof.Machine Sys2Proof.Claims

/-! ## The queue of commands -/

/-- A step takes the command at the front of the queue and is `exec` of it on the state with the queue's rest; with nothing
waiting the device idles (the model's choice: DESIGN CHOICE, log 1). -/
def Obligations.StepRunsFront : Prop :=
  (∀ (i : Instr) (rest : List Instr) (s : State), s.pending = i :: rest → step s = exec i { s with pending := rest })
    ∧ ∀ s : State, s.pending = [] → step s = .next s

/-! ## The control core (02) -/

/-- ALU, MULC and DIVC complete with the result and the flags of 02 R46, R47 and R49, and change nothing else. -/
def Obligations.RegisterResult : Prop :=
  ∀ e ∈ regRows, ∀ (b : BenchId) (f : FmtR) (s : State), ready s b f.cond 1 [f.rd, f.ra, f.rb] = true →
    completes (e.instr b f) s fun t =>
      let c := (s.bench b).core
      let r := e.result c.flags (c.rd f.ra) (c.rd f.rb)
      coreStep s t b e.cycles ∧ fellThrough s t b 1
        ∧ writes c (t.bench b).core f.rd r
        ∧ (t.bench b).core.flags = if f.sf = 1 then e.flags.after c.flags (c.rd f.ra) (c.rd f.rb) r else c.flags

/-- The immediate and long forms, the compare with an immediate and PCMP complete with the results of 02 R46, R48 and R50. -/
def Obligations.ImmediateResult : Prop :=
  (∀ e ∈ immRows, ∀ (b : BenchId) (f : FmtI) (s : State), ready s b f.cond 1 [f.rd, f.ra] = true →
    completes (e.instr b f) s fun t =>
      let c := (s.bench b).core
      let y := f.imm.signExtend 64
      let r := e.result (c.rd f.ra) y
      coreStep s t b 3 ∧ fellThrough s t b 1 ∧ writes c (t.bench b).core f.rd r
        ∧ (t.bench b).core.flags = if f.sf = 1 then e.flags.after c.flags (c.rd f.ra) y r else c.flags)
  ∧ (∀ e ∈ longRows, ∀ (b : BenchId) (f : FmtX) (s : State), ready s b f.cond 2 [f.rd, f.ra] = true → f.rsv = 0 →
    completes (e.instr b f) s fun t =>
      let c := (s.bench b).core
      let r := e.result (c.rd f.ra) f.imm
      coreStep s t b 4 ∧ fellThrough s t b 2 ∧ writes c (t.bench b).core f.rd r
        ∧ (t.bench b).core.flags =
          if f.sf = 1 ∧ e.sets = true then
            (FlagRule.addition false).after c.flags (c.rd f.ra) (f.imm.signExtend 64) r
          else c.flags)
  ∧ (∀ (b : BenchId) (f : FmtSH) (s : State), ready s b f.cond 1 [f.rd, f.ra] = true → f.rsv = 0 →
    completes (.shi b f) s fun t =>
      let c := (s.bench b).core
      let r := shiftBy f.kind (c.rd f.ra) f.shamt.toNat
      coreStep s t b 3 ∧ fellThrough s t b 1 ∧ writes c (t.bench b).core f.rd r
        ∧ (t.bench b).core.flags = if f.sf = 1 then FlagRule.zn.after c.flags (c.rd f.ra) 0 r else c.flags)
  ∧ (∀ (b : BenchId) (f : FmtI) (s : State), ready s b f.cond 1 [f.ra] = true → f.rd = 0 → f.sf = 0 →
    completes (.cmpi b f) s fun t =>
      let c := (s.bench b).core
      let y := f.imm.signExtend 64
      coreStep s t b 3 ∧ fellThrough s t b 1 ∧ regsKept c (t.bench b).core
        ∧ (t.bench b).core.flags = (FlagRule.subtraction false).after c.flags (c.rd f.ra) y (c.rd f.ra - y))
  ∧ (∀ (b : BenchId) (f : FmtP) (s : State), ready s b f.cond 1 [f.ra, f.rb] = true → f.rsv = 0 → f.pd ≠ 0 → f.rel ≠ 7 →
    completes (.pcmp b f) s fun t =>
      let c := (s.bench b).core
      coreStep s t b 3 ∧ fellThrough s t b 1 ∧ regsKept c (t.bench b).core
        ∧ predSet c.flags (t.bench b).core.flags f.pd (related f.rel (c.rd f.ra) (c.rd f.rb)))

/-- LD and ST reach the bench store at bits [20:0] of the effective address (02 R56): LD writes the little-endian value, sign- or
zero-extended, and changes no byte; ST writes exactly the bytes that its size names. -/
def Obligations.BenchStoreAccess : Prop :=
  (∀ (b : BenchId) (f : FmtM) (s : State), ready s b f.cond 1 [f.rt, f.ra] = true → storeOk s b f true = true →
    completes (.ld b f) s fun t =>
      let c := (s.bench b).core
      let v := (s.bench b).store.leNat wrapStore (c.ea f.ra f.off).toNat (2 ^ f.sz.toNat)
      onlyBench s t b ∧ coreKeeps c (t.bench b).core ∧ fellThrough s t b 1
        ∧ { t.bench b with core := c, dcache := (s.bench b).dcache } = s.bench b
        ∧ (t.bench b).core.flags = c.flags
        ∧ writes c (t.bench b).core f.rt
          (if f.sx = 1 then (BitVec.ofNat (8 * 2 ^ f.sz.toNat) v).signExtend 64 else BitVec.ofNat 64 v))
  ∧ (∀ (b : BenchId) (f : FmtM) (s : State), ready s b f.cond 1 [f.rt, f.ra] = true → f.sx = 0 →
      storeOk s b f false = true →
    completes (.st b f) s fun t =>
      let c := (s.bench b).core
      let n := 2 ^ f.sz.toNat
      let ea := (c.ea f.ra f.off).toNat
      onlyBench s t b ∧ coreKeeps c (t.bench b).core ∧ fellThrough s t b 1
        ∧ { t.bench b with core := c, store := (s.bench b).store, storeBad := (s.bench b).storeBad } = s.bench b
        ∧ (t.bench b).core.flags = c.flags ∧ regsKept c (t.bench b).core
        ∧ (∀ k, k < n → (t.bench b).store.byte (wrapStore (ea + k)) = (c.rd f.rt).extractLsb' (8 * k) 8)
        ∧ ∀ a, (∀ k, k < n → a ≠ wrapStore (ea + k)) → (t.bench b).store.byte a = (s.bench b).store.byte a)

/-- STP writes bits [35:0] of RS to word ra + OFF14 with fresh check bits where BEN_PGUARD lets the level write it, and below it raises
Privilege violation (02 R61, R62); a held word of that address leaves the lookahead buffer, and the next Fetch is then visible (R67); PSYNC
empties the lookahead buffer (R68). An instruction whose first word carries a single-bit error does what it does when that is corrected,
written back and counted; an uncorrectable one raises Bus error, POISON, at its address (R60). -/
def Obligations.ProgramStoreWrite : Prop :=
  (∀ (b : BenchId) (f : FmtS) (s : State), ready s b f.cond 1 [f.rs, f.ra] = true →
      stpAllowed s b ((s.bench b).core.rd f.ra + f.off.signExtend 64) = true →
    completes (.stp b f) s fun t =>
      let c := (s.bench b).core
      let a : BitVec 16 := (c.rd f.ra + f.off.signExtend 64).setWidth 16
      let held := c.lookahead.any fun e => e.addr == a
      onlyBench s t b ∧ coreKeeps c (t.bench b).core ∧ timed s t b 4 ∧ fellThrough s t b 1 ∧ regsKept c (t.bench b).core
        ∧ (t.bench b).core.flags = c.flags
        ∧ (t.bench b).core.fetchDue = held ∧ (held = true → ∀ e ∈ (t.bench b).core.lookahead, e.addr ≠ a)
        ∧ { t.bench b with core := c, ps := (s.bench b).ps, psErr := (s.bench b).psErr, psBlocks := (s.bench b).psBlocks }
            = s.bench b
        ∧ (∀ q : BitVec 16, (t.bench b).psWord q = if q = a then (c.rd f.rs).setWidth 36 else (s.bench b).psWord q)
        ∧ ∀ q : BitVec 16, Sp.find (t.bench b).psErr q.toNat = if q = a then none else Sp.find (s.bench b).psErr q.toNat)
  ∧ (∀ (b : BenchId) (f : FmtN) (s : State), ready s b f.cond 1 [] = true → f.rsv = 0 →
    completes (.psync b f) s fun t =>
      coreStep s t b 3 ∧ fellThrough s t b 1 ∧ regsKept (s.bench b).core (t.bench b).core
        ∧ (t.bench b).core.flags = (s.bench b).core.flags
        ∧ (t.bench b).core.lookahead = [] ∧ (t.bench b).core.fetchDue = true)
  ∧ (∀ (b : BenchId) (f : FmtS) (s : State), ready s b f.cond 1 [f.rs, f.ra] = true →
      let c := (s.bench b).core
      let a : BitVec 16 := (c.rd f.ra + f.off.signExtend 64).setWidth 16
      let l := s.delegLevel b 0x06 c.pl
      stpAllowed s b (c.rd f.ra + f.off.signExtend 64) = false → roomFor s b l = true →
    completes (.stp b f) s fun t => entered s t b l 0x06 1 c.pc (a.setWidth 64) 0 ∧ (t.bench b).ps = (s.bench b).ps)
  ∧ (∀ (i : Instr) (b : BenchId) (w : W36) (long : Bool), coreWord i = some (b, w, long) → ∀ s : State,
      s.departed = false → s.canIssue b = true → fetchesWord s b = true →
      let pc := (s.bench b).core.pc
      let l := s.delegLevel b 0x04 (s.bench b).core.pl
      (Sp.find (s.bench b).psErr pc.toNat = some .single → exec i s = exec i (psCorrected s b pc))
      ∧ (Sp.find (s.bench b).psErr pc.toNat = some .double → roomFor s b l = true →
        completes i s fun t => entered s t b l 0x04 1 pc (pc.setWidth 64) 0 ∧ t.fld .benPsErr b.val 31 31 = 1))

/-- BR, JAL and JR transfer (02 R51): a taken transfer makes no loop-end decision and leaves the loop stack (R76).
LOOP and LOOPI push a loop, or skip its body when the count is 0, where none of the five illegal cases of 02 R74 holds
(R75); LPOP removes the innermost loops (R79). -/
def Obligations.TransfersAndLoops : Prop :=
  ((∀ (b : BenchId) (f : FmtB) (s : State), ready s b f.cond 1 [] = true → f.rd = 0 → f.rsv = 0 →
    completes (.br b f) s fun t =>
      coreStep s t b 3 ∧ jumped s t b ((s.bench b).core.pc + f.disp) ∧ regsKept (s.bench b).core (t.bench b).core
        ∧ (t.bench b).core.flags = (s.bench b).core.flags)
  ∧ (∀ (b : BenchId) (f : FmtB) (s : State), ready s b f.cond 1 [f.rd] = true → f.rsv = 0 →
    completes (.jal b f) s fun t =>
      coreStep s t b 3 ∧ jumped s t b ((s.bench b).core.pc + f.disp)
        ∧ writes (s.bench b).core (t.bench b).core f.rd (((s.bench b).core.pc + 1).setWidth 64)
        ∧ (t.bench b).core.flags = (s.bench b).core.flags)
  ∧ (∀ (b : BenchId) (f : FmtJ) (s : State), ready s b f.cond 1 [f.rd, f.ra] = true → f.rsv = 0 →
    completes (.jr b f) s fun t =>
      coreStep s t b 3 ∧ jumped s t b (((s.bench b).core.rd f.ra).setWidth 16)
        ∧ writes (s.bench b).core (t.bench b).core f.rd (((s.bench b).core.pc + 1).setWidth 64)
        ∧ (t.bench b).core.flags = (s.bench b).core.flags))
  ∧ ((∀ (b : BenchId) (f : FmtL) (s : State), ready s b f.cond 1 [f.ra] = true → f.rsv1 = 0 → f.rsv2 = 0 →
      loopAllowed (s.bench b).core f.len →
    completes (.loop b f) s fun t =>
      coreStep s t b 3 ∧ regsKept (s.bench b).core (t.bench b).core ∧ (t.bench b).core.flags = (s.bench b).core.flags
        ∧ looped s t b (((s.bench b).core.rd f.ra).setWidth 32) f.len)
  ∧ (∀ (b : BenchId) (f : FmtLI) (s : State), ready s b f.cond 1 [] = true → loopAllowed (s.bench b).core f.len →
    completes (.loopi b f) s fun t =>
      coreStep s t b 3 ∧ regsKept (s.bench b).core (t.bench b).core ∧ (t.bench b).core.flags = (s.bench b).core.flags
        ∧ looped s t b (f.cnt.setWidth 32) f.len)
  ∧ (∀ (b : BenchId) (f : FmtLP) (s : State), ready s b f.cond 1 [] = true → f.rsv = 0 →
      f.nm1.toNat + 1 ≤ (s.bench b).core.loops.length →
    completes (.lpop b f) s fun t =>
      let c := (s.bench b).core
      coreStep s t b 3 ∧ regsKept c (t.bench b).core ∧ (t.bench b).core.flags = c.flags
        ∧ ((t.bench b).core.loops, (t.bench b).core.pc) = loopEnd c.pc (c.loops.drop (f.nm1.toNat + 1)) (c.pc + 1)))

/-- MGET reads every special register of 02 table 2.8 that the level may read, and MSET writes every writable one (02 R80, 03
R91): the value read back is what its width keeps of the value written. -/
def Obligations.SpecialRegisters : Prop :=
  (∀ (b : BenchId) (f : FmtC) (s : State), ready s b f.cond 1 [f.rx] = true → f.rsv = 0 →
      specialReadable (s.bench b).core f.sreg.toNat = true →
    completes (.mget b f) s fun t =>
      coreStep s t b 3 ∧ fellThrough s t b 1 ∧ (t.bench b).core.flags = (s.bench b).core.flags
        ∧ writes (s.bench b).core (t.bench b).core f.rx (specialValue s b f.sreg.toNat))
  ∧ (∀ (b : BenchId) (f : FmtC) (s : State), ready s b f.cond 1 [f.rx] = true → f.rsv = 0 →
      specialWritable s b f.sreg.toNat ((s.bench b).core.rd f.rx) = true →
    completes (.mset b f) s fun t =>
      let v := (s.bench b).core.rd f.rx
      let c := (s.bench b).core
      regsKept c (t.bench b).core ∧ timed s t b 3
        ∧ ((t.bench b).core.loops, (t.bench b).core.pc)
            = loopEnd c.pc (loopsSet c.loops f.sreg.toNat v) (c.pc + 1)
        ∧ (t.bench b).core.pl = c.pl ∧ (t.bench b).core.ien = c.ien ∧ (t.bench b).core.xdepth = c.xdepth
        ∧ (t.bench b).store = (s.bench b).store ∧ t.mem = s.mem ∧ (∀ q, q ≠ b → t.bench q = s.bench q)
        ∧ (f.sreg.toNat ∈ [0x01, 0x10, 0x11, 0x12] → specialValue t b f.sreg.toNat = v &&& specialMask f.sreg.toNat)
        ∧ (f.sreg = 0x00 → (t.bench b).core.len = v.getLsbD 0
            ∧ (t.bench b).core.plb = if s.fld .benDbgCtl b.val 4 4 = 1 then (s.bench b).core.plb else v.getLsbD 1)
        ∧ (f.sreg.toNat ≠ 0x01 → (t.bench b).core.flags = (s.bench b).core.flags))

/-- An instruction whose condition is false completes as a no-op: it writes no register, flag, predicate, queue or memory, raises
nothing, even from an illegal encoding, and makes the loop-end decision after its whole length (02 R43, R76). -/
def Obligations.FalseConditionIsNoOp : Prop :=
  ∀ (i : Instr) (b : BenchId) (w : W36) (long : Bool), coreWord i = some (b, w, long) → ∀ s : State,
    unready s b (w.extractLsb' 32 4) = true →
    completes i s fun t =>
      coreStep s t b 1 ∧ fellThrough s t b (if long then 2 else 1) ∧ regsKept (s.bench b).core (t.bench b).core
        ∧ (t.bench b).core.flags = (s.bench b).core.flags

/-! ## Exceptions (03) -/

/-- A non-zero reserved field, and each encoding that 02 R44, R48, R50, R51, R56, R74, R79, R80 or 03 R101 makes illegal, raises
Illegal opcode at the level that BEN_XDELEG gives, with the instruction's address as RET.
Misaligned access: with MODE.LEN 0, an LD or ST whose address is no multiple of its size raises cause 0x03 with the effective
address, and no byte outside the frame changes (02 R58). -/
def Obligations.SynchronousCauses : Prop :=
  (∀ (i : Instr) (b : BenchId) (w : W36) (long : Bool), coreWord i = some (b, w, long) → ∀ s : State,
    ready s b (w.extractLsb' 32 4) (if long then 2 else 1) [] = true → illegalIn s i = true →
    let l := s.delegLevel b 0x01 (s.bench b).core.pl
    roomFor s b l = true →
    completes i s fun t => entered s t b l 0x01 0 (s.bench b).core.pc 0 0)
  ∧ (∀ (b : BenchId) (f : FmtM) (s : State), ready s b f.cond 1 [f.rt, f.ra] = true →
    let c := (s.bench b).core
    let l := s.delegLevel b 0x03 c.pl
    c.len = false → (c.ea f.ra f.off).toNat % 2 ^ f.sz.toNat ≠ 0 → roomFor s b l = true →
    completes (.ld b f) s (fun t => entered s t b l 0x03 0 c.pc (c.ea f.ra f.off) 0)
      ∧ (f.sx = 0 → completes (.st b f) s fun t => entered s t b l 0x03 0 c.pc (c.ea f.ra f.off) 0))

/-- TRAP completes, with its loop-end decision, and then raises Trap: RET is the address that the decision chose, INFO is CODE16,
and the level is Master for TGT 1, else the next level up, or the current one from Journeyman or Master (03 R102). -/
def Obligations.TrapEnters : Prop :=
  ∀ (b : BenchId) (f : FmtTrap) (s : State), ready s b f.cond 1 [] = true → f.rsv = 0 →
    let c := (s.bench b).core
    let l : BitVec 2 := if f.tgt = 1 then 2 else if c.pl = 0 then 1 else c.pl
    let p := loopEnd c.pc c.loops (c.pc + 1)
    roomFor s b l = true →
    completes (.trap b f) s fun t =>
      entered (s.updCore b fun c => { c with loops := p.1 }) t b l 0x0B 0 p.2 0 (f.code.setWidth 32)

/-- EXCEPTION_ENTRY takes the pending causes: a core that stands between instructions and has only an enabled Foreman notice,
Count match or Bell wake pending enters it at the level BEN_XDELEG gives, and Preempt at Master, with RET the core's next instruction
(03 R105, R109); a word that decodes to no instruction raises Illegal or Reserved opcode (02 R44), and those words are the ones that name no
command (R45). -/
def Obligations.InterruptEntry : Prop :=
  (∀ (b : BenchId) (s : State) (code : Byte), s.departed = false → s.canEnter b = true →
      (s.bench b).core.stall = none → onlyPending (s.bench b).core code = true →
      let l := if code = causePreempt then 2 else s.delegLevel b code (s.bench b).core.pl
      roomFor s b l = true →
    completes (.exceptionEntry b .point) s fun t => entered s t b l code 0 (s.bench b).core.pc 0 0)
  ∧ (∀ (b : BenchId) (w imm : W36) (s : State), ready s b (w.extractLsb' 32 4) (if opcLong w then 2 else 1) [] = true →
      wordClass w ≠ .named →
      let code : Byte := if wordClass w = .illegal then 0x01 else 0x02
      let l := s.delegLevel b code (s.bench b).core.pl
      roomFor s b l = true →
    completes (.exceptionEntry b (.word w imm)) s fun t => entered s t b l code 0 (s.bench b).core.pc 0 0)
  ∧ ∀ (b : BenchId) (w imm : W36), instrOf b w imm = none ↔ wordClass w ≠ .named

/-- RETX from a frame whose seal, PL and LDEPTH pass the checks of 03 R98 restores PL, the enables, the flags, LEN, BSK and LDA from
its word 1, the loops from words 8 to 11, XSP from PSP, counts XDEPTH down and goes to RET + ADV. RESEAL forms the seal of RA
(R103). -/
def Obligations.ReturnRestores : Prop :=
  (∀ (b : BenchId) (f : FmtRetx) (s : State), ready s b f.cond 1 [] = true → f.rsv = 0 → f.adv ≠ 3 →
      frameGood s b = true →
    completes (.retx b f) s fun t =>
      let x := s.bench b
      let c := x.core
      let fa := frameAddr (s.bank b c.pl).xsp
      let st := x.frameWord fa 1
      let d := (t.bench b).core
      d.pl = st.extractLsb' 0 2 ∧ d.ien = st.extractLsb' 20 4 ∧ d.flags.toBits = st.extractLsb' 8 7 ∧ d.len = st.getLsbD 5
        ∧ d.bsk = st.getLsbD 6 ∧ d.lda = st.getLsbD 3 ∧ d.xdepth = c.xdepth - 1 ∧ regsKept c d
        ∧ (t.bank b c.pl).xsp = ((x.frameWord fa 7).setWidth 32).setWidth 64
        ∧ (t.bench b).store = x.store
        ∧ let pc := (x.frameWord fa 0).setWidth 16 + f.adv.setWidth 16
          let ls := ((List.range (st.extractLsb' 16 3).toNat).map fun k => loopOfWord (x.frameWord fa (8 + k))).reverse
          (d.loops, d.pc) = if f.adv = 0 then (ls, pc) else loopEnd (pc - 1) ls pc)
  ∧ (∀ (b : BenchId) (f : FmtReseal) (s : State), ready s b f.cond 1 [f.rd, f.ra] = true → f.rsv = 0 →
      let c := (s.bench b).core
      c.pl ≠ 0 → (c.rd f.ra).extractLsb' 0 2 ≤ c.pl → (c.rd f.ra).extractLsb' 0 2 ≠ 3 →
    completes (.reseal b f) s fun t =>
      coreStep s t b 5 ∧ fellThrough s t b 1 ∧ (t.bench b).core.flags = c.flags
        ∧ writes c (t.bench b).core f.rd ((seal16 c.xkey (c.rd f.ra) c.xdepth).setWidth 64))

/-- HALT stops a core that stands at an interrupt point, HALT_RELEASE lets it go on, and STEP lets it execute one instruction (02 R86); a
write of BEN_DBG_DATA replaces half of the scalar register that BEN_DBG_SEL selects, or of FLAGS, XSP, XSL or XBASE, and leaves a read-only
special register as it was (R88); COUNT_MATCH makes Count match pending, once (03 R109).
COUNT_MATCH passes the cycles up to the match, and debug writes of read-only registers do nothing (DEDUCED, logs 13 and 14). -/
def Obligations.DebugAndCount : Prop :=
  (∀ (b : BenchId) (s : State), s.departed = false → (s.bench b).core.running = true → (s.bench b).core.halted = false →
      (s.bench b).atPoint = true →
    completes (.halt b) s fun t => (t.bench b).core.halted = true ∧ (t.bench b).core.why = 1
      ∧ t.fld .benDbgCtl b.val 0 0 = 1 ∧ regsKept (s.bench b).core (t.bench b).core
      ∧ (t.bench b).core.pc = (s.bench b).core.pc)
  ∧ (∀ (b : BenchId) (s : State), s.departed = false → (s.bench b).core.halted = true → nothingCame s b →
    completes (.haltRelease b) s fun t => t.fld .benDbgCtl b.val 0 0 = 0
      ∧ { (t.bench b).core with cycle := (s.bench b).core.cycle }
          = { (s.bench b).core with halted := false, stepping := false, why := 0 }
      ∧ { t.bench b with core := (s.bench b).core } = s.bench b ∧ (∀ q, q ≠ b → t.bench q = s.bench q) ∧ t.mem = s.mem)
  ∧ (∀ (b : BenchId) (s : State), s.departed = false → (s.bench b).core.halted = true → nothingCame s b →
    completes (.step b) s fun t => onlyBench s t b ∧ (t.bench b).core = { (s.bench b).core with stepping := true })
  ∧ (∀ (b : BenchId) (hi : Bool) (v : W32) (s : State), s.departed = false → (s.bench b).core.halted = true →
      (s.reg ⟨.benDbgSel, b.val, 0⟩).getLsbD 8 = false →
    completes (.debugDataWrite b hi v) s fun t =>
      let r : R5 := (s.reg ⟨.benDbgSel, b.val, 0⟩).setWidth 5
      let x := (s.bench b).core.rd r
      onlyBench s t b ∧ writes (s.bench b).core (t.bench b).core r (halfSet hi v x)
      ∧ (t.bench b).core.pc = (s.bench b).core.pc ∧ (t.bench b).core.flags = (s.bench b).core.flags)
  ∧ (∀ (b : BenchId) (hi : Bool) (v : W32) (s : State), s.departed = false → (s.bench b).core.halted = true →
      let sel := s.reg ⟨.benDbgSel, b.val, 0⟩
      let n := sel.toNat % 256
      sel.getLsbD 8 = true →
      ((n = 0x01 ∨ n ∈ [0x10, 0x11, 0x12] ∧ (s.bench b).core.pl ≠ 0) → completes (.debugDataWrite b hi v) s fun t =>
        specialValue t b n = halfSet hi v (specialValue s b n) &&& specialMask n
          ∧ regsKept (s.bench b).core (t.bench b).core ∧ (t.bench b).core.pc = (s.bench b).core.pc)
      ∧ (n ∈ [0x05, 0x06, 0x07, 0x08] → completes (.debugDataWrite b hi v) s fun t => t = s))
  ∧ (∀ (b : BenchId) (s : State), s.departed = false → s.aclock b = true → (s.bench b).core.countDone = false →
    completes (.countMatch b) s fun t => (t.bench b).core.pendCount = true ∧ (t.bench b).core.countDone = true
      ∧ (s.xcmp b).toNat ≤ (t.bench b).core.cycle.toNat ∧ onlyBench s t b
      ∧ regsKept (s.bench b).core (t.bench b).core ∧ (t.bench b).core.pc = (s.bench b).core.pc)

/-! ## Dispatch to the engines (02) -/

/-- A lathe or forge instruction completes by writing its entry into its queue, with its scalar values (02 R70), and marks a scalar
register that the engine will write as pending (R72); a full queue stalls it (R73), and the stall's end lets it complete. -/
def Obligations.DispatchQueues : Prop :=
  (∀ (b : BenchId) (i : EngInstr) (s : State),
      ready s b (i.word.extractLsb' 32 4) 1 (i.reads ++ i.dest.toList) = true → engLegal (s.bench b).core i = true →
      (s.bench b).queueShut i.forge = false →
    completes (.latheDispatch b i) s fun t =>
      let x := s.bench b
      let e := entryOf x.core i x.core.pc x.core.seq
      onlyBench s t b ∧ timed s t b 3 ∧ fellThrough s t b 1 ∧ regsKept x.core (t.bench b).core
        ∧ (t.bench b).core.flags = x.core.flags ∧ (t.bench b).store = x.store
        ∧ (t.bench b).lathe.queue = (if i.forge then x.lathe.queue else x.lathe.queue ++ [e])
        ∧ (t.bench b).forge.queue = (if i.forge then x.forge.queue ++ [e] else x.forge.queue)
        ∧ (∀ r, i.dest = some r → r ≠ 0 → r ∈ (t.bench b).core.pendingScalar))
  ∧ (∀ (b : BenchId) (i : EngInstr) (s : State),
      ready s b (i.word.extractLsb' 32 4) 1 (i.reads ++ i.dest.toList) = true → engLegal (s.bench b).core i = true →
      (s.bench b).queueShut i.forge = true →
    completes (.latheDispatch b i) s fun t => stays s t b (.queue i) ∧ (t.bench b).lathe = (s.bench b).lathe
      ∧ (t.bench b).forge = (s.bench b).forge)
  ∧ (∀ (b : BenchId) (i : EngInstr) (s : State), s.departed = false → s.canIssue b = true →
      (s.bench b).core.stall = some (.queue i) → (s.bench b).queueShut i.forge = false →
    completes (.queueStallRelease b) s fun t =>
      let x := s.bench b
      let e := entryOf x.core i x.core.pc x.core.seq
      timed s t b 3 ∧ fellThrough s t b 1 ∧ regsKept x.core (t.bench b).core
        ∧ (t.bench b).lathe.queue = (if i.forge then x.lathe.queue else x.lathe.queue ++ [e])
        ∧ (t.bench b).forge.queue = (if i.forge then x.forge.queue ++ [e] else x.forge.queue))

/-- Pair dispatch writes both entries in one 3-A-cycle step where every condition of 02 R71 holds. -/
def Obligations.PairDispatch : Prop :=
  ∀ (b : BenchId) (i j : EngInstr) (s : State), s.departed = false → s.pairOk b i j = true →
    completes (.pairDispatch b i j) s fun t =>
      let x := s.bench b
      let l := if i.forge then j else i
      let g := if i.forge then i else j
      let pcl := if i.forge then x.core.pc + 1 else x.core.pc
      let pcg := if i.forge then x.core.pc else x.core.pc + 1
      timed s t b 3 ∧ regsKept x.core (t.bench b).core
        ∧ ((t.bench b).core.loops, (t.bench b).core.pc) = loopEnd (x.core.pc + 1) x.core.loops (x.core.pc + 2)
        ∧ (∃ e f, (t.bench b).lathe.queue = x.lathe.queue ++ [e] ∧ (t.bench b).forge.queue = x.forge.queue ++ [f]
            ∧ e.instr = l ∧ e.epc = pcl ∧ e.level = x.core.pl ∧ e.a = x.core.rd (l.word.extractLsb' 14 5)
            ∧ e.b = x.core.rd (l.word.extractLsb' 9 5) ∧ e.c = x.core.rd (l.word.extractLsb' 4 5)
            ∧ f.instr = g ∧ f.epc = pcg ∧ f.level = x.core.pl ∧ f.a = x.core.rd (g.word.extractLsb' 14 5)
            ∧ f.b = x.core.rd (g.word.extractLsb' 9 5) ∧ f.c = x.core.rd (g.word.extractLsb' 4 5))

/-- The engine's write of a pending scalar register: the register takes the value formed, is pending no longer, and a core that
stalled on it goes on (02 R72). -/
def Obligations.ScalarResultWritten : Prop :=
  ∀ (b : BenchId) (r : R5) (v : W64) (s : State), s.departed = false → s.aclock b = true →
    (s.bench b).core.results.find? (fun p => p.1 = r) = some (r, v) →
    completes (.scalarResultWrite b r) s fun t =>
      let c := (s.bench b).core
      onlyBench s t b ∧ writes c (t.bench b).core r v ∧ (t.bench b).core.flags = c.flags ∧ (t.bench b).core.pc = c.pc
        ∧ (t.bench b).core.pendingScalar = c.pendingScalar.erase r
        ∧ (t.bench b).core.stall = if c.stall = some (.scalar r) then none else c.stall

/-! ## Scalar accesses by DVA, atomics, fences (02, 08) -/

/-- STG stores its register at the translated DPA (02 R56): exactly the bytes that its size names change. An LDG whose line the
scalar data cache holds completes at once with the cached bytes (R57); LDG_RESPONSE completes a waiting LDG with the bytes of memory
(R52).
When an LDG stalls in the core and completes at LDG_RESPONSE is the reading of log 41 (DEDUCED). -/
def Obligations.DvaAccess : Prop :=
  (∀ (b : BenchId) (f : FmtM) (s s' : State) (g : Way) (a : Nat), ready s b f.cond 1 [f.rt, f.ra] = true → f.sx = 0 →
      let c := (s.bench b).core
      let ea := c.ea f.ra f.off
      let n := 2 ^ f.sz.toNat
      ea.toNat % n = 0 → c.onPath ea = false → s.firstWatch b 1 false true 0 [(ea, n)] = none →
      (s.withdraw (.core b)).translate (.core b) (s.benchHmk b) ea .write = (s', .ok g) → coreReaches s' b g a n true →
    completes (.stg b f) s fun t =>
      fellThrough s t b 1 ∧ regsKept c (t.bench b).core ∧ (t.bench b).core.flags = c.flags
        ∧ (t.bench b).store = (s.bench b).store ∧ (∀ q, q ≠ b → t.bench q = s.bench q)
        ∧ stored s.mem.dram t.mem.dram a (leBytes n (c.rd f.rt).toNat))
  ∧ (∀ (b : BenchId) (f : FmtM) (s s' : State) (g : Way) (a : Nat) (d : List Byte),
      ready s b f.cond 1 [f.rt, f.ra] = true →
      let c := (s.bench b).core
      let ea := c.ea f.ra f.off
      let n := 2 ^ f.sz.toNat
      ea.toNat % n = 0 → c.onPath ea = false → s.firstWatch b 1 true false 0 [(ea, n)] = none →
      (s.withdraw (.core b)).translate (.core b) (s.benchHmk b) ea .read = (s', .ok g) → g.target = .dpa a → a < windowBase →
      s'.plumb b = false → (s'.bench b).cachedBytes a n = some d →
    completes (.ldg b f) s fun t =>
      fellThrough s t b 1 ∧ (t.bench b).core.flags = c.flags ∧ t.mem.dram = s.mem.dram
        ∧ (t.bench b).store = (s.bench b).store
        ∧ writes c (t.bench b).core f.rt (extendLoad n (f.sx == 1) (leVal d)))
  ∧ (∀ (b : BenchId) (s : State) (acc : Access) (rd : R5) (sx : Bool) (p : Piece) (a : Nat),
      stalledIn s b (.response acc [p]) → acc.kind = .load rd sx → coreReaches s b p.way a p.len false → p.cut = false →
      (∀ r ∈ s.xlat.replies, r.flight.who.eng ≠ .core b) → (s.bench b).cached 1 (a / 64) = false →
      (s.shopCache (shopOf b)).find? (fun l => l.line = a / 128) = none →
    completes (.ldgResponse b) s fun t =>
      let c := (s.bench b).core
      fellThrough s t b 1 ∧ (t.bench b).core.flags = c.flags ∧ t.mem.dram = s.mem.dram
        ∧ writes c (t.bench b).core rd (extendLoad acc.size sx (leVal (s.mem.dram.bytes id a p.len))))

/-- The thirteen atomic operations in the bench store complete with the old value in RD (AST writes none) and the new value of 08
table 8.6 in the location; no other byte changes. -/
def Obligations.AtomicInStore : Prop :=
  ∀ e ∈ atomRows, ∀ (b : BenchId) (f : FmtAtom) (s : State),
    ready (s.unfence b (f.word 0x26 e.aop)) b f.cond 1 [f.rd, f.ra, f.rb] = true →
    f.mo.toNat < 6 → f.sp = 0 → (e.aop = 12 → f.rd = 0) → (e.aop = 11 → f.rb = 0) →
    (f.mo ≠ 0 → waitSetEmpty s b false false (f.mo == 5) = true) →
    let c := (s.bench b).core
    let n := if f.sz = 1 then 8 else 4
    let off := (c.rd f.ra).toNat % 0x200000
    off % n = 0 → s.watchpoint b 0 off n true true = none → s.guarded b c.pl off n = false →
    (s.bench b).storePoisoned off n = false →
    completes (e.instr b f) s fun t =>
      let old := (s.bench b).store.leNat id off n
      let new := e.value (8 * n) (BitVec.ofNat (8 * n) old) ((c.rd f.rb).setWidth (8 * n)) ((c.rd f.rd).setWidth (8 * n))
      onlyBench s t b ∧ coreKeeps c (t.bench b).core ∧ timed s t b 6 ∧ fellThrough s t b 1
        ∧ (t.bench b).core.flags = c.flags
        ∧ writes c (t.bench b).core f.rd (BitVec.ofNat 64 old)
        ∧ stored (s.bench b).store (t.bench b).store off (leBytes n new.toNat)

/-- A fence completes when its wait set is empty and stalls until then (08 R252, R253); past its limit it, and a late response, raise
Bus error, TIMEOUT (R254, R255).
CINV invalidates the whole scalar data cache with LVL 0 or for a range above 32 KiB, the whole shop cache with LVL 2 for one of 8 MiB, and
for a range in one line that line in the scalar data cache and, with LVL 2, in the shop cache; it changes no byte of memory (08 R261).
A stalled fence completes when its command runs again (DEDUCED, log 39). -/
def Obligations.FencesAndCaches : Prop :=
  ((∀ e ∈ fenceRows, ∀ (b : BenchId) (f : FmtFence) (s : State),
      ready (s.unfence b (f.word 0x3C e.2)) b f.cond 1 [] = true → f.rsv = 0 →
      waitSetEmpty s b (f.lq == 1) (f.fq == 1) (e.2 == 4) = true →
    completes (e.1 b f) s fun t =>
      coreStep s t b 3 ∧ fellThrough s t b 1 ∧ regsKept (s.bench b).core (t.bench b).core
        ∧ (t.bench b).core.flags = (s.bench b).core.flags)
  ∧ (∀ e ∈ fenceRows, ∀ (b : BenchId) (f : FmtFence) (s : State), ready s b f.cond 1 [] = true → f.rsv = 0 →
      waitSetEmpty s b (f.lq == 1) (f.fq == 1) (e.2 == 4) = false →
    completes (e.1 b f) s fun t => stays s t b (.fence (f.word 0x3C e.2)))
  ∧ (∀ (b : BenchId) (w : W36) (s : State), stalledIn s b (.fence w) →
      let l := s.delegLevel b 0x04 (s.bench b).core.pl
      roomFor s b l = true →
    completes (.fenceTimeout b) s fun t => entered s t b l 0x04 4 (s.bench b).core.pc 0 0)
  ∧ (∀ (b : BenchId) (acc : Access) (rd : R5) (sx : Bool) (ps : List Piece) (s : State),
      stalledIn s b (.response acc ps) → acc.kind = .load rd sx →
      let l := s.delegLevel b 0x04 (s.bench b).core.pl
      roomFor s b l = true →
    completes (.responseTimeout b) s fun t => entered s t b l 0x04 4 (s.bench b).core.pc acc.ea 0))
  ∧ (∀ (b : BenchId) (f : FmtCinv) (s : State), ready s b f.cond 1 [f.ra, f.rb] = true → f.rsv1 = 0 → f.rsv2 = 0 →
    f.lvl ≠ 3 → (f.lvl = 0 → f.ra = 0 ∧ f.rb = 0) →
    completes (.cinv b f) s fun t =>
      let c := (s.bench b).core
      let lo := (c.rd f.ra).toNat
      let len := (c.rd f.rb).toNat
      fellThrough s t b 1 ∧ regsKept c (t.bench b).core ∧ (t.bench b).core.flags = c.flags
        ∧ t.mem.dram = s.mem.dram ∧ (∀ q, (t.bench q).store = (s.bench q).store)
        ∧ (∀ l ∈ (t.bench b).dcache, l ∈ (s.bench b).dcache)
        ∧ (f.lvl = 0 ∨ 0x8000 < len → (t.bench b).dcache = [])
        ∧ (f.lvl = 2 → 0x800000 ≤ len → t.shopCache (shopOf b) = [])
        ∧ (f.lvl ≠ 0 → 0 < len → (lo + len - 1) / 64 = lo / 64 → ∀ s' g a,
            s.translate (.core b) (s.benchHmk b) (BitVec.ofNat 64 (lo / 64 * 64)) .read false = (s', .ok g) → g.target = .dpa a →
            (t.bench b).cached 1 (a / 64) = false
              ∧ (f.lvl = 2 → ∀ l ∈ t.shopCache (shopOf b), l.line ≠ a / 128)))

/-! ## Bells (11) -/

/-- RING adds to or sets the count of an admitted bell, as a release at its scope (11 R345-R347); ABORT changes no count, and ends the
kernel of the bench at once on that kernel's completion bell.
WAIT completes when the count meets the target (11 R343, R348) and stalls until then; WAIT with ASYNC arms the watch; PEAL adds 1
and writes its target (R349); a met target wakes the waiter, or makes Bell wake pending; BEL_CNT sets a bell (R342). -/
def Obligations.Bells : Prop :=
  (∀ (b : BenchId) (f : FmtRing) (s : State) (op : BitVec 2), f.scope.toNat < 5 →
    ready (s.unfence b (f.word 0x38 op)) b f.cond 1 [f.ra, f.rb] = true →
    waitSetEmpty s b false false (f.scope == 4) = true →
    let c := (s.bench b).core
    let n : BitVec 16 := (c.rd f.ra).setWidth 16
    let v := ringVal c f.rb f.imm
    s.bellAllows (s.benchHmk b) n = true →
    (op = 0 → completes (.ringAdd b f) s fun t =>
        bellStep s t b 3 ∧ regsKept c (t.bench b).core ∧ bellTakes s t n (s.bell n + v))
    ∧ (op = 1 → completes (.ringSet b f) s fun t =>
        bellStep s t b 3 ∧ regsKept c (t.bench b).core ∧ bellTakes s t n v)
    ∧ (op = 2 → completes (.ringAbort b f) s fun t =>
        regsKept c (t.bench b).core ∧ fellThrough s t b 1 ∧ timed s t b 3 ∧ t.belfry = s.belfry
          ∧ (∀ k, (s.bench b).slot = some k → (s.kernel k).phase = .running → wordBits (s.kernel k).words 1 63 48 = n.toNat →
              (s.kernel k).status ≠ stSeized →
              (t.kernel k).phase = .ending true ∧ (t.kernel k).status = stAborted ∧ (t.kernel k).code = v.setWidth 16)))
  ∧ ((∀ (b : BenchId) (f : FmtWait) (s : State), f.scope.toNat < 5 → f.rsv1 = 0 → f.rsv2 = 0 →
      ready s b f.cond 1 [f.ra, f.rb] = true →
      let c := (s.bench b).core
      let n : BitVec 16 := (c.rd f.ra).setWidth 16
      let g : W32 := (c.rd f.rb).setWidth 32
      s.bellAllows (s.benchHmk b) n = true →
    (met (s.bell n) g = true → completes (.wait b f) s fun t => coreStep s t b 3 ∧ fellThrough s t b 1
        ∧ regsKept c (t.bench b).core ∧ (t.bench b).core.flags = c.flags)
    ∧ (met (s.bell n) g = false → completes (.wait b f) s fun t =>
        stays s t b (.bell n g (f.word 0x39 0) f.scope none) ∧ t.belfry = s.belfry)
    ∧ completes (.waitAsync b f) s fun t => onlyBench s t b ∧ (t.bench b).watch = some (n, g, f.scope) ∧ timed s t b 3
        ∧ fellThrough s t b 1 ∧ regsKept c (t.bench b).core ∧ (t.bench b).core.flags = c.flags)
  ∧ (∀ (b : BenchId) (f : FmtPeal) (s : State), f.scope.toNat < 5 → f.rsv1 = 0 → f.rsv2 = 0 →
      ready (s.unfence b (f.word 0x3A)) b f.cond 1 [f.ra, f.rb, f.rd] = true →
      waitSetEmpty s b false false (f.scope == 4) = true →
      let c := (s.bench b).core
      let n : BitVec 16 := (c.rd f.ra).setWidth 16
      let k := max 1 ((c.rd f.rb).setWidth 16).toNat
      let o := s.bell n
      let g := BitVec.ofNat 32 ((o.toNat / k + 1) * k)
      s.bellAllows (s.benchHmk b) n = true →
    completes (.peal b f) s fun t => bellTakes s t n (o + 1) ∧ writes c (t.bench b).core f.rd (g.setWidth 64)
      ∧ (t.bench b).core.flags = c.flags
      ∧ (met (o + 1) g = true → bellStep s t b 4)
      ∧ (met (o + 1) g = false → (t.bench b).core.pc = c.pc
          ∧ (t.bench b).core.stall = some (.bell n g (f.word 0x3A) f.scope (some f.rd))))
  ∧ (∀ (b : BenchId) (n : BitVec 16) (g : W32) (w : W36) (sc : BitVec 3) (rd : Option R5) (s : State),
      stalledIn s b (.bell n g w sc rd) → met (s.bell n) g = true → cleanWords (s.bench b) 0 = true →
    completes (.bellCountWake (.bench b)) s fun t => coreStep s t b (if rd.isSome then 4 else 3) ∧ fellThrough s t b 1
      ∧ regsKept (s.bench b).core (t.bench b).core ∧ (t.bench b).core.flags = (s.bench b).core.flags)
  ∧ (∀ (b : BenchId) (n : BitVec 16) (g : W32) (sc : BitVec 3) (s : State), s.departed = false →
      (s.bench b).watch = some (n, g, sc) → met (s.bell n) g = true →
    completes (.bellWake b) s fun t => onlyBench s t b ∧ (t.bench b).watch = none
      ∧ (t.bench b).core = { (s.bench b).core with pendBell := true })
  ∧ (∀ (v : W32) (s : State), s.departed = false →
    completes (.bellCountSet v) s fun t => t = { s with belfry := t.belfry }
      ∧ bellTakes s t (BitVec.ofNat 16 (s.fld .belCntSel 0 15 0)) v))

/-- CHIME adds to a bell of a peer: to the own device it is a local ADD; to a reachable peer it leaves with the next sequence number
and waits; the receiver applies the one that it expects, acknowledges an earlier one without applying it, and discards a later one; the
acknowledgement completes it, a late one raises TIMEOUT, and unacknowledged chimes are sent again (11 R350; 14 R439).
That a resynchronising chime sent again is not applied again is the reading of log 153 (DEDUCED). -/
def Obligations.Chimes : Prop :=
  (∀ (b : BenchId) (f : FmtChime) (s : State), f.scope = 4 → f.rsv1 = 0 →
      ready (s.unfence b (f.word 0x3B)) b f.cond 1 [f.ra, f.rb] = true → waitSetEmpty s b false false true = true →
      let c := (s.bench b).core
      let n : BitVec 16 := (c.rd f.ra).setWidth 16
      let p : PeerId := (c.rd f.ra).extractLsb' 16 12
      let v := ringVal c f.rb f.imm
    (p = s.ownPeer → s.bellAllows (s.benchHmk b) n = true →
      completes (.chime b f) s fun t => bellStep s t b 3 ∧ regsKept c (t.bench b).core ∧ bellTakes s t n (s.bell n + v))
    ∧ (p ≠ s.ownPeer → s.reachable p = true →
      completes (.chime b f) s fun t => stays s t b (.chime p (s.nextSeq p) (f.word 0x3B) (c.rd f.ra))
        ∧ t.nextSeq p = s.nextSeq p + 1 ∧ (∀ q, t.bell q = s.bell q)
        ∧ packetsSent s t [(p, 4, .chime (s.nextSeq p) (s.belfry.resync.contains p) (s.benchHmk b) n v, [])]))
  ∧ (∀ (p : PeerId) (q : W32) (r : Bool) (h : BitVec 12) (n : BitVec 16) (v : W32) (s : State), s.departed = false →
      s.rootOn = true →
    let u := s.unload fun k => k.src == p && k.body == .chime q r h n v
    let new := r = true ∧ Sp.find s.belfry.resynced p.toNat ≠ some q
    ((new ∨ q = s.expectSeq p) → s.bellAllows h n = true → (s.group n).getLsbD 30 = false →
      completes (.chimeReceive p q r h n v) s fun t => bellTakes s t n (s.bell n + v) ∧ t.expectSeq p = q + 1
        ∧ packetsSent u t [(p, 5, .chimeAck q false, [])])
    ∧ (¬ new → q ≠ s.expectSeq p → met (s.expectSeq p) q = true →
      completes (.chimeReceive p q r h n v) s fun t => (∀ k, t.bell k = s.bell k) ∧ t.expectSeq p = s.expectSeq p
        ∧ packetsSent u t [(p, 5, .chimeAck q (s.belfry.refused.contains (p, q)), [])])
    ∧ (¬ new → q ≠ s.expectSeq p → met (s.expectSeq p) q = false →
      completes (.chimeReceive p q r h n v) s fun t => t = u))
  ∧ (∀ (p : PeerId) (q : W32) (b : BenchId) (s : State), s.departed = false → s.rootOn = true →
      (∃ k ∈ s.belfry.sent, k.peer = p ∧ k.seq = q) → s.chimeWaiter p q = some b → s.coreHeld b = false → cleanWords (s.bench b) 0 = true →
    completes (.chimeAckReceive p q false) s fun t =>
      bellStep (s.unload fun k => k.src == p && k.body == .chimeAck q false) t b 3 ∧ regsKept (s.bench b).core (t.bench b).core
      ∧ (∀ k ∈ t.belfry.sent, ¬ (k.peer = p ∧ k.seq = q)) ∧ ∀ n, t.bell n = s.bell n)
  ∧ (∀ (b : BenchId) (p : PeerId) (q : W32) (w : W36) (a : W64) (s : State), stalledIn s b (.chime p q w a) →
      let l := s.delegLevel b 0x04 (s.bench b).core.pl
      roomFor s b l = true →
    completes (.chimeAckTimeout b) s fun t => entered s t b l 0x04 4 (s.bench b).core.pc a 0 ∧ t.belfry = s.belfry)
  ∧ (∀ (p : PeerId) (s : State), s.departed = false → s.rootOn = true →
      (∀ k ∈ s.belfry.sent, k.peer = p → k.tries < s.fld .dryE2e 0 7 0) →
    completes (.chimeResend p) s fun t => (∀ n, t.bell n = s.bell n)
      ∧ packetsSent s t ((s.belfry.sent.filter fun k => k.peer = p).map
          fun k => (k.peer, 4, .chime k.seq k.resync k.hmk k.bell k.v, [])))

/-! ## The lathe (04) -/

/-- The elementwise instructions of format VV complete: arithmetic, fixed-point and floating-point operations, VFSQRT, VFABS, VFNEG, the
clips and VMV write each active element from the sources as they stood (04 R126-R129, R133-R138); VMERGE selects by mask, VID writes
the index; FXSAT and FFLAGS gather what the active elements raise (R133, R137). -/
def Obligations.LatheElementwise : Prop :=
  ∀ (op : VvOp) (b : BenchId) (f : FmtVV) (p : Pace) (e : Entry) (s : State),
    latheHeads s b (.vv op f) e → unhindered p →
    let l := (s.bench b).lathe
    let w := sewBits e.sew
    ((∃ fp, op.kind = .arith fp) ∨ op.kind ∈ [VvKind.sqrt, .unary, .clip, .move] →
      completes (vvCommand op b f p) s fun t =>
        let m := (t.bench b).lathe
        let res := fun i => vvElem op (l.ctl e) (l.elem f.va i (if op.kind = .clip then 2 * w else w)) (l.second e f w i) (l.elem f.vd i w)
        let act := (List.range l.vl).filter fun i => decide (l.vpi ≤ i) && l.active f.ms i
        latheStep s t b ∧ onlyVectors l m
          ∧ elementsTake l m f.vd w (fun i => masked l f.ms f.mz i (res i).val (l.elem f.vd i w))
          ∧ m.fxsat = (l.fxsat || act.any fun i => (res i).sat)
          ∧ m.fflags = act.foldl (fun x i => x ||| (res i).fl) l.fflags)
    ∧ (op.kind = .merge → completes (vvCommand op b f p) s fun t =>
        let m := (t.bench b).lathe
        latheStep s t b ∧ onlyVectors l m ∧ m.fxsat = l.fxsat ∧ m.fflags = l.fflags
          ∧ elementsTake l m f.vd w (fun i => if l.active f.ms i then l.second e f w i else l.elem f.va i w))
    ∧ (op.kind = .index → completes (vvCommand op b f p) s fun t =>
        let m := (t.bench b).lathe
        latheStep s t b ∧ onlyVectors l m ∧ m.fxsat = l.fxsat ∧ m.fflags = l.fflags
          ∧ elementsTake l m f.vd w (fun i => masked l f.ms f.mz i i (l.elem f.vd i w)))

/-- The values of the integer and fixed-point operations on elements of 8, 16, 32 or 64 bits: integers wrap and shift by b mod SEW (04
R128), compares follow table 4.5, rshr rounds as R132 states, and the saturating operations clamp and report it (R133). -/
def Obligations.LatheElementValues : Prop :=
  (∀ r ∈ intRows, ∀ (k : VCtl) (a b : BitVec k.w) (d : Nat), k.w ∈ [8, 16, 32, 64] →
    vvElem r.1 k a.toNat b.toNat d = { val := (r.2 k.w a b).toNat })
  ∧ (∀ r ∈ cmpRows, ∀ (k : VCtl) (a b : BitVec k.w), k.w ∈ [8, 16, 32, 64] →
    vcElem r.1 k a.toNat b.toNat = (r.2 k.w a b, 0))
  ∧ (∀ (mode : BitVec 2) (v : Int) (d : Nat),
    rshr mode v d = if d = 0 then v else v / 2 ^ d + if rndUp mode (v / 2 ^ d) (v % 2 ^ d) d then 1 else 0)
  ∧ (∀ (k : VCtl) (a b : BitVec k.w) (d : Nat), k.w ∈ [8, 16, 32, 64] →
    let sat := fun (v : Int) => decide (v < -(2 ^ (k.w - 1)) ∨ 2 ^ (k.w - 1) ≤ v)
    let lim := fun (v : Int) => (BitVec.ofInt k.w (max (-(2 ^ (k.w - 1))) (min (2 ^ (k.w - 1) - 1) v))).toNat
    let x := vvElem .vaddsat k a.toNat b.toNat d
    let y := vvElem .vsubsat k a.toNat b.toNat d
    let z := vvElem .vfrmul k a.toNat b.toNat d
    x.val = lim (a.toInt + b.toInt) ∧ x.sat = sat (a.toInt + b.toInt)
      ∧ y.val = lim (a.toInt - b.toInt) ∧ y.sat = sat (a.toInt - b.toInt)
      ∧ z.val = lim (rshr k.fxrnd (a.toInt * b.toInt) (k.w - 1))
      ∧ (vvElem .vaddsatu k a.toNat b.toNat d).val = min (2 ^ k.w - 1) (a.toNat + b.toNat)
      ∧ (vvElem .vsubsatu k a.toNat b.toNat d).val = a.toNat - b.toNat)

/-- The compares write mask bits from VPI to VL, active elements their relation and inactive ones 0 with MZ (04 R126, R128, R138), and no
tail bit; the mask instructions write bits 0 to VL - 1 (R130). -/
def Obligations.LatheMasks : Prop :=
  ∀ (op : VvOp) (b : BenchId) (f : FmtVV) (p : Pace) (e : Entry) (s : State),
    latheHeads s b (.vv op f) e → unhindered p → (s.bench b).lathe.vl ≤ 32768 →
    let l := (s.bench b).lathe
    let w := sewBits e.sew
    let k := f.vd.toNat % 8
    ((∃ fp, op.kind = .compare fp) → completes (vvCommand op b f p) s fun t =>
        let m := (t.bench b).lathe
        let res := fun i => vcElem op (l.ctl e) (l.elem f.va i w) (l.second e f w i)
        let act := (List.range l.vl).filter fun i => decide (l.vpi ≤ i) && l.active f.ms i
        latheStep s t b ∧ onlyMasks l m ∧ m.fflags = act.foldl (fun x i => x ||| (res i).2) l.fflags
          ∧ maskTakes l m k l.vpi (fun i => if l.active f.ms i then (res i).1 else f.mz != 1 && l.maskBit k i))
    ∧ (∀ r ∈ maskRows, op = r.1 → completes (vvCommand op b f p) s fun t =>
        let m := (t.bench b).lathe
        latheStep s t b ∧ onlyMasks l m ∧ m.fflags = l.fflags
          ∧ maskTakes l m k 0 (fun i => r.2 (l.maskBit (f.va.toNat % 8) i) (l.maskBit (f.vb.toNat % 8) i)))

/-- The reductions write element 0 of VD and no other byte (04 R140); VINS writes one element below VL (R129). -/
def Obligations.LatheReductions : Prop :=
  ∀ (op : VvOp) (b : BenchId) (f : FmtVV) (p : Pace) (e : Entry) (s : State),
    latheHeads s b (.vv op f) e → unhindered p →
    let l := (s.bench b).lathe
    let w := sewBits e.sew
    let init := if f.src = 1 then e.b.toNat % 2 ^ w else l.elem f.vb 0 w
    let xs := ((List.range l.vl).filter fun i => l.active f.ms i).map fun i => l.elem f.va i w
    ((∃ fp, op.kind = .reduce fp) → completes (vvCommand op b f p) s fun t =>
        let m := (t.bench b).lathe
        latheStep s t b ∧ onlyVectors l m ∧ m.fxsat = l.fxsat
          ∧ m.elem f.vd 0 w = (reduceVal op (l.ctl e) init xs).val % 2 ^ w
          ∧ (∀ r ∈ reduceRows, op = r.1 → m.elem f.vd 0 w = r.2 w init xs ∧ m.fflags = l.fflags)
          ∧ ∀ a, (a < elemAt f.vd.toNat 0 w ∨ elemAt f.vd.toNat 1 w ≤ a) → m.v.byte a = l.v.byte a)
    ∧ (op = .vins → completes (vvCommand op b f p) s fun t =>
        let m := (t.bench b).lathe
        latheStep s t b ∧ onlyVectors l m ∧ m.fxsat = l.fxsat ∧ m.fflags = l.fflags
          ∧ (e.b.toNat < l.vl → m.elem f.vd e.b.toNat w = e.a.toNat % 2 ^ w)
          ∧ ∀ a, (l.vl ≤ e.b.toNat ∨ a < elemAt f.vd.toNat e.b.toNat w ∨ elemAt f.vd.toNat (e.b.toNat + 1) w ≤ a) →
              m.v.byte a = l.v.byte a)

/-- VMPOP, VMFIRST and VEXT form a scalar result for their pending register (04 R129, R130); VCSR forms the control register's value and
writes the writable ones (R122); VSETL sets the vector type and VL = min(AVL, VLMAX) (R118). -/
def Obligations.LatheScalars : Prop :=
  (∀ (op : VvOp) (b : BenchId) (f : FmtVV) (p : Pace) (e : Entry) (s : State),
      latheHeads s b (.vv op f) e → unhindered p → op ∈ [VvOp.vmpop, .vmfirst, .vext] →
    completes (vvCommand op b f p) s fun t =>
      let l := (s.bench b).lathe
      let w := sewBits e.sew
      let on := (List.range l.vl).filter fun i => l.maskBit (f.va.toNat % 8) i
      let v : W64 :=
        if op = .vmpop then BitVec.ofNat 64 on.length
        else if op = .vmfirst then (on.head?.map (BitVec.ofNat 64)).getD (BitVec.allOnes 64)
        else if e.b.toNat < 32768 * grpSize e.grp / w then BitVec.ofNat 64 (l.elem f.va e.b.toNat w) else 0
      onlyLathe s t b ∧ (t.bench b).lathe = { l with queue := l.queue.drop 1, vpi := 0, wait := none }
        ∧ (t.bench b).core = { (s.bench b).core with
            results := (s.bench b).core.results ++ if f.vd = 0 then [] else [(f.vd, v)] }
        ∧ (t.bench b).store = (s.bench b).store ∧ (t.bench b).forge = (s.bench b).forge)
  ∧ (∀ (b : BenchId) (f : FmtVC) (e : Entry) (s : State), latheHeads s b (.vcsr f) e → f.csr.toNat ≤ 7 →
    completes (.vcsr b f) s fun t =>
      let l := (s.bench b).lathe
      let m := (t.bench b).lathe
      let v : W64 := match f.csr.toNat with
        | 0 => BitVec.ofNat 64 l.vl
        | 1 => 0#59 ++ BitVec.ofBool l.fpk ++ l.grp ++ l.sew
        | 2 => 4096
        | 3 => BitVec.ofNat 64 l.vpi
        | 4 => l.fxrnd.setWidth 64
        | 5 => (BitVec.ofBool l.fxsat).setWidth 64
        | 6 => l.frm.setWidth 64
        | _ => l.fflags.setWidth 64
      (t.bench b).core.results = (s.bench b).core.results ++ (if f.rd = 0 then [] else [(f.rd, v)])
        ∧ m.fxrnd = (if f.w = 1 ∧ f.csr = 4 then e.a.setWidth 2 else l.fxrnd)
        ∧ m.fxsat = (if f.w = 1 ∧ f.csr = 5 then e.a.getLsbD 0 else l.fxsat)
        ∧ m.frm = (if f.w = 1 ∧ f.csr = 6 then e.a.setWidth 2 else l.frm)
        ∧ m.fflags = (if f.w = 1 ∧ f.csr = 7 then e.a.setWidth 5 else l.fflags)
        ∧ m.v = l.v ∧ m.m = l.m ∧ m.vl = l.vl ∧ m.sew = l.sew ∧ m.grp = l.grp ∧ m.fpk = l.fpk
        ∧ m.queue = l.queue.drop 1)
  ∧ (∀ (b : BenchId) (f : FmtVS) (e : Entry) (s : State), latheHeads s b (.vsetl f) e →
    completes (.vsetl b f) s fun t =>
      let l := (s.bench b).lathe
      let m := (t.bench b).lathe
      latheStep s t b ∧ m.sew = f.sew ∧ m.grp = f.grp ∧ m.fpk = (f.fpk == 1)
        ∧ m.vl = min e.a.toNat (4096 * 8 * 2 ^ f.grp.toNat / (8 * 2 ^ f.sew.toNat))
        ∧ m.v = l.v ∧ m.m = l.m ∧ m.fflags = l.fflags ∧ m.fxsat = l.fxsat ∧ m.frm = l.frm ∧ m.fxrnd = l.fxrnd)

/-- VCVT converts each active element (04 R139), VTLD copies tile elements into a group and VTST a group into a tile (R131), with each
element's residue modulo 3 (07 R212). An arithmetic instruction with two mismatches in one element group stops there with Arithmetic check
deferred (04 R147; 03 R107); one that is stopped at a group boundary keeps its entry and notes the boundary in VPI (04 R149). -/
def Obligations.LatheConversions : Prop :=
  (∀ (b : BenchId) (f : FmtVX) (p : Pace) (e : Entry) (s : State), latheHeads s b (.vcvt f) e → unhindered p →
    completes (.vcvt b f p) s fun t =>
      let l := (s.bench b).lathe
      let m := (t.bench b).lathe
      let res := fun i => cvtDest f.dfmt (frmRnd l.frm) (f.sat == 1) (cvtSource f.sfmt (l.elem f.va i (fmtWidth f.sfmt)))
      latheStep s t b ∧ onlyVectors l m ∧ m.fxsat = l.fxsat
        ∧ elementsTake l m f.vd (fmtWidth f.dfmt)
            (fun i => masked l f.ms f.mz i (res i).val (l.elem f.vd i (fmtWidth f.dfmt))))
  ∧ (∀ (b : BenchId) (f : FmtVT) (p : Pace) (e : Entry) (s : State), latheHeads s b (.vtld f) e → unhindered p →
    completes (.vtld b f p) s fun t =>
      let l := (s.bench b).lathe
      let m := (t.bench b).lathe
      latheStep s t b ∧ onlyVectors l m ∧ m.fxsat = l.fxsat ∧ m.fflags = l.fflags
        ∧ elementsTake l m f.vd 32 (fun i => masked l f.ms f.mz i
            ((s.bench b).forge.tile f.t.toNat ((e.a + BitVec.ofNat 64 i).toNat % 8192)).toNat (l.elem f.vd i 32)))
  ∧ (∀ (b : BenchId) (f : FmtVT) (p : Pace) (e : Entry) (s : State), latheHeads s b (.vtst f) e → unhindered p →
      (s.bench b).lathe.vl ≤ 8192 →
    completes (.vtst b f p) s fun t =>
      let l := (s.bench b).lathe
      let m := (t.bench b).lathe
      let g := (t.bench b).forge
      m = { l with queue := l.queue.drop 1, vpi := 0, wait := none }
        ∧ { t.bench b with lathe := l, forge := (s.bench b).forge } = s.bench b ∧ onlyLathe s t b
        ∧ { g with tiles := (s.bench b).forge.tiles, residues := (s.bench b).forge.residues } = (s.bench b).forge
        ∧ (∀ i, l.vpi ≤ i → i < l.vl → l.active f.ms i = true →
            let k := (e.a + BitVec.ofNat 64 i).toNat % 8192
            g.tile f.t.toNat k = BitVec.ofNat 32 (l.elem f.vd i 32)
              ∧ g.residue f.t.toNat k = BitVec.ofNat 2 (l.elem f.vd i 32 % 2 ^ 32 % 3))
        ∧ ∀ q k, k < 8192 →
            (q ≠ f.t.toNat ∨ ∀ i, l.vpi ≤ i → i < l.vl → l.active f.ms i = true → k ≠ (e.a + BitVec.ofNat 64 i).toNat % 8192) →
            g.tile q k = (s.bench b).forge.tile q k ∧ g.residue q k = (s.bench b).forge.residue q k)
  ∧ (∀ (op : VvOp) (b : BenchId) (f : FmtVV) (g : Nat) (e : Entry) (s : State), latheHeads s b (.vv op f) e →
      (∃ fp, op.kind = .arith fp) → (s.bench b).lathe.vpi / groupElems (sewBits e.sew) ≤ g →
      g * groupElems (sewBits e.sew) < (s.bench b).lathe.vl →
    completes (vvCommand op b f { mism := [g, g] }) s fun t =>
      let l := (s.bench b).lathe
      let k := g * (8192 / sewBits e.sew)
      (t.bench b).lathe.frozen = true ∧ (t.bench b).lathe.queue = l.queue ∧ (t.bench b).lathe.vpi = k
        ∧ (t.bench b).core.deferLathe = some
            { holder := .lathe, cause := { code := 0x09, sub := 1, info := BitVec.ofNat 32 k }, word := f.word op.code.1 op.code.2
              epc := e.epc, level := e.level }
        ∧ ∀ a, elemAt f.vd.toNat k (sewBits e.sew) ≤ a → (t.bench b).lathe.v.byte a = l.v.byte a)
  ∧ (∀ (op : VvOp) (b : BenchId) (f : FmtVV) (n : Nat) (e : Entry) (s : State), latheHeads s b (.vv op f) e →
      (∃ fp, op.kind = .arith fp) → 0 < n →
      let l := (s.bench b).lathe
      let w := sewBits e.sew
      let k := (l.vpi / (8192 / w) + n) * (8192 / w)
      k < l.vl →
    completes (vvCommand op b f { mism := [], stop := some n }) s fun t =>
      let m := (t.bench b).lathe
      m.queue = l.queue ∧ m.vpi = k ∧ m.frozen = false
        ∧ (∀ i, l.vpi ≤ i → i < k → m.elem f.vd i w = masked l f.ms f.mz i
            (vvElem op (l.ctl e) (l.elem f.va i w) (l.second e f w i) (l.elem f.vd i w)).val (l.elem f.vd i w) % 2 ^ w)
        ∧ ∀ a, (a < elemAt f.vd.toNat l.vpi w ∨ elemAt f.vd.toNat k w ≤ a) → m.v.byte a = l.v.byte a)

/-- The seven vector memory instructions complete. In the bench store every active element from VPI up is read, or written in index
order, at its address of 04 table 4.9 (R141-R145), and no other byte changes. By DVA, the last element is read from, or written to, the
ingot or yard byte to which its address is translated (R144; 09 R285). A stack guard stops VLD and VLDS at element VPI, deferred as
Privilege violation (04 R146; 03 R93). A misaligned element beyond the first active one shortens VL in VGATH.FF (04 R150). An instruction
that is stopped after some elements keeps its entry and notes the next element in VPI (R149). -/
def Obligations.LatheMemory : Prop :=
  (∀ (op : VmOp) (b : BenchId) (f : FmtVM) (e : Entry) (s : State), latheHeads s b (.vm op f) e → f.sp = 0 →
      (∀ i ∈ remaining (s.bench b).lathe f.ms, elemOk s b op e f i = true) →
      let l := (s.bench b).lathe
      let n := sewBits e.sew / 8
      let off := fun i => (vmAddr op e f l i).toNat % 0x200000
    (op.stores = true → s.portHolds (.lathe b) = false → completes (vmCommand op b f) s fun t =>
        (t.bench b).lathe = { l with queue := l.queue.drop 1, vpi := 0, wait := none }
          ∧ { t.bench b with lathe := l, store := (s.bench b).store, storeBad := (s.bench b).storeBad } = s.bench b
          ∧ onlyLathe s t b
          ∧ ∀ a, (t.bench b).store.byte a = ((remaining l f.ms).foldl
              (fun (m : Memory) i => m.setBytes wrapStore (off i) (leBytes n (l.elem f.vd i (sewBits e.sew)))) (s.bench b).store).byte a)
    ∧ (op.stores = false →
        (op.indexed = true → elemAt f.vd.toNat l.vl (sewBits e.sew) ≤ f.rb.toNat * 4096
          ∨ elemAt f.rb.toNat l.vl (if f.ix = 1 then 64 else 32) ≤ f.vd.toNat * 4096) →
        completes (vmCommand op b f) s fun t =>
          let m := (t.bench b).lathe
          latheStep s t b ∧ onlyVectors l m ∧ m.fxsat = l.fxsat ∧ m.fflags = l.fflags
            ∧ elementsTake l m f.vd (sewBits e.sew) (fun i =>
                masked l f.ms f.mz i ((s.bench b).store.leNat wrapStore (off i) n) (l.elem f.vd i (sewBits e.sew)))))
  ∧ (∀ (op : VmOp) (b : BenchId) (f : FmtVM) (e : Entry) (s : State), latheHeads s b (.vm op f) e → f.sp = 0 →
      op ∈ [VmOp.vld, .vlds] →
      let l := (s.bench b).lathe
      let n := sewBits e.sew / 8
      let a := vmAddr op e f l l.vpi
      l.vpi < l.vl → l.active f.ms l.vpi = true → a.toNat % n = 0 → s.guarded b e.level (a.toNat % 0x200000) n = true →
    completes (vmCommand op b f) s fun t =>
      (t.bench b).lathe.frozen = true ∧ (t.bench b).lathe.vpi = l.vpi ∧ (t.bench b).lathe.v = l.v
        ∧ (t.bench b).core.deferLathe = some
            { holder := .lathe, cause := { code := 0x06, sub := 5, addr := a, info := BitVec.ofNat 32 l.vpi }, word := f.word op.code
              epc := e.epc, level := e.level })
  ∧ (∀ (b : BenchId) (f : FmtVM) (e : Entry) (s : State) (k : Nat), latheHeads s b (.vm .vgathFf f) e → f.sp = 0 →
      let l := (s.bench b).lathe
      let a := vmAddr .vgathFf e f l k
      l.vpi = k → k < l.vl → l.active f.ms k = true → (∃ j, j < k ∧ l.active f.ms j = true) →
      a.toNat % (sewBits e.sew / 8) ≠ 0 →
    completes (.vgathFf b { f }) s fun t => (t.bench b).lathe.vl = k ∧ (t.bench b).lathe.v = l.v
      ∧ (t.bench b).lathe.queue = l.queue.drop 1)
  ∧ (∀ (op : VmOp) (b : BenchId) (f : FmtVM) (e : Entry) (s s' : State) (k : Nat) (g : Way) (a : Nat),
      latheHeads s b (.vm op f) e → f.sp = 1 →
      let l := (s.bench b).lathe
      let n := sewBits e.sew / 8
      let dva := vmAddr op e f l k
      remaining l f.ms = [k] → l.vpi = k → l.vl = k + 1 → dva.toNat % n = 0 → (∀ r ∈ s.xlat.replies, r.flight.who.eng ≠ .lathe b) →
      (∀ r ∈ s.xlat.flights, r.who.eng ≠ .lathe b) → (∀ h ∈ s.held, h.reply?.all (fun r => r.flight.who.eng != .lathe b) = true) →
      s.translate (.lathe b) (s.benchHmk b) dva (if op.stores then .write else .read) true = (s', .ok g) →
      coreReaches s' b g a n op.stores →
    (op.stores = true → s.portHolds (.lathe b) = false → completes (vmCommand op b f) s fun t =>
        (t.bench b).lathe = { l with queue := l.queue.drop 1, vpi := 0, wait := none }
          ∧ (t.bench b).store = (s.bench b).store
          ∧ stored s.mem.dram t.mem.dram a (leBytes n (l.elem f.vd k (sewBits e.sew))))
    ∧ (op.stores = false → (s.shopCache (shopOf b)).find? (fun x => x.line = a / 128) = none →
        completes (vmCommand op b f) s fun t =>
          let m := (t.bench b).lathe
          onlyVectors l m ∧ m.fxsat = l.fxsat ∧ m.fflags = l.fflags ∧ m.queue = l.queue.drop 1 ∧ m.vpi = 0
            ∧ (t.bench b).store = (s.bench b).store ∧ t.mem.dram = s.mem.dram
            ∧ elementsTake l m f.vd (sewBits e.sew) (fun _ => leVal (s.mem.dram.bytes id a n))))
  ∧ (∀ (op : VmOp) (b : BenchId) (f : FmtVM) (n : Nat) (e : Entry) (s : State), latheHeads s b (.vm op f) e → f.sp = 0 →
      (∀ i ∈ remaining (s.bench b).lathe f.ms, elemOk s b op e f i = true) →
      let l := (s.bench b).lathe
      l.vpi + n < l.vl → (op.indexed = true → elemAt f.vd.toNat l.vl (sewBits e.sew) ≤ f.rb.toNat * 4096
          ∨ elemAt f.rb.toNat l.vl (if f.ix = 1 then 64 else 32) ≤ f.vd.toNat * 4096) →
    completes (vmStopped op b f n) s fun t =>
      let m := (t.bench b).lathe
      m.queue = l.queue ∧ m.vpi = l.vpi + n ∧ m.frozen = false ∧ m.vl = l.vl
        ∧ ∀ a, elemAt f.vd.toNat (l.vpi + n) (sewBits e.sew) ≤ a → m.v.byte a = l.v.byte a)

/-! ## The forge, the crucible and the ladle (05-07) -/

/-- An array operation that passes the checks of 05 table 5.8 runs every heat of every sweep in the array: each element of tile T, and
of T + 1 for a wide operation, takes what 06 R194 to R209 form from its operands, with its residue modulo 3 (07 R212), the lanes step as
R204 states, and no other element changes. -/
def Obligations.ArrayOperation : Prop :=
  ∀ (i : EngInstr) (c : Instr) (b : BenchId) (e : Entry) (s : State),
    ((∃ f, i = .fop f ∧ c = .fop b f none []) ∨ ∃ f, i = .fgauge f ∧ c = .fgauge b f none []) →
    forgeHeads s b i e → arrayIdle s b → (s.bench b).forge.inject = false → (s.bench b).arrayFault e = none → e.k ≠ 0 →
    completes c s fun t =>
      let x := s.bench b
      let g := e.instr.ctl
      onlyBench s t b ∧ arrayFrame x (t.bench b)
        ∧ (∀ j, j < 128 → (t.bench b).forge.lane j = laneAt x g e.heats j)
        ∧ (∀ k, k < 8192 → (t.bench b).forge.residue g.t k = BitVec.ofNat 2 (((t.bench b).forge.tile g.t k).toNat % 3))
        ∧ (∀ k, k < 8192 → (t.bench b).forge.tile g.t k = afterHeats x e false k (x.forge.tile g.t k))
        ∧ (∀ k, k < 8192 → g.wide = true →
            (t.bench b).forge.tile (g.t + 1) k = afterHeats x e true k (x.forge.tile (g.t + 1) k))
        ∧ ∀ q k, k < 8192 → q ≠ g.t → ¬ (g.wide = true ∧ q = g.t + 1) → (t.bench b).forge.tile q k = x.forge.tile q k

/-- An FOP on INT8 operands without CLAMP is the integer matrix product, modulo 2^32: element (i, j) of tile T gains the sum over the K
steps of column element i times row element j, or takes it with OVW = 1 (05 R154, 06 R208). -/
def Obligations.IntegerProduct : Prop :=
  ∀ (b : BenchId) (f : FmtF) (e : Entry) (s : State),
    forgeHeads s b (.fop f) e → arrayIdle s b → (s.bench b).forge.inject = false → (s.bench b).arrayFault e = none → e.k ≠ 0 →
    f.fmt = 7 → f.clamp = 0 → f.wide = 0 →
    completes (.fop b f none []) s fun t =>
      let x := s.bench b
      arrayFrame x (t.bench b) ∧ ∀ i j, i < 64 → j < 128 →
        (t.bench b).forge.tile f.t.toNat (128 * i + j) =
          (if f.ovw = 1 then 0 else x.forge.tile f.t.toNat (128 * i + j)) +
            BitVec.ofInt 32 ((List.range e.k).map fun k =>
              (BitVec.ofNat 8 (x.sideRaw e.col 64 7 k i)).toInt * (BitVec.ofNat 8 (x.sideRaw e.row 128 7 k j)).toInt).sum

/-- PLOAD writes rows ROW0 to ROW0 + NROW - 1 of plate PL from the bench store and clears the plate where its geometry differs (05
R160); SEED sets the lanes (06 R205); TSYNC with nothing to wait for forms 0 for RD and leaves the queue (R181); SCOREBOARD_RELEASE
begins a stalled PLOAD with which nothing conflicts any more (R178; 08 R247). -/
def Obligations.PlateLoadAndSeed : Prop :=
  (∀ (b : BenchId) (f : FmtPL) (e : Entry) (s : State) (queued : Bool),
      (s.bench b).forge.loader = none → (s.bench b).storeFree e = true →
      (if queued then forgeHeads s b (.pload f) e ∧ (s.bench b).forge.loaderNext = none
        else s.departed = false ∧ s.forgeRuns b = true ∧ (s.bench b).forge.loaderNext = some e ∧ e.instr = .pload f
          ∧ (s.bench b).forge.arrayNext = none ∧ (s.bench b).forge.ladleNext = none ∧ (s.bench b).forge.queue = []
          ∧ (s.bench b).freeToBegin e = true) →
      ploadFault e = none →
      let x := s.bench b
      let d := plateDesc e.b
      let len := 128 * 2 ^ d.pcl.toNat * (4 * 2 ^ d.we.toNat) / 8
      let at_ := fun n => (e.a.toNat + n * d.stride) % 0x200000
      let p := f.pl.toNat
      (∀ n, n < d.nrow → s.guarded b e.level (at_ n) len = false ∧ x.storePoisoned (at_ n) len = false) →
    completes (if queued then .pload b { f } else .scoreboardRelease b true) s fun t =>
      let y := (t.bench b).forge
      onlyBench s t b ∧ { t.bench b with forge := x.forge } = x
        ∧ y.queue = (if queued then x.forge.queue.drop 1 else []) ∧ y.loaderNext = none ∧ y.loader = none ∧ y.tiles = x.forge.tiles
        ∧ (if p = 0 then y.weA = d.we ∧ y.pclA = d.pcl ∧ y.weB = x.forge.weB ∧ y.pclB = x.forge.pclB
            else y.weB = d.we ∧ y.pclB = d.pcl ∧ y.weA = x.forge.weA ∧ y.pclA = x.forge.pclA)
        ∧ (∀ n k, n < d.nrow → k < len →
            y.plates.byte (p * 131072 + (d.row0 + n) * len + k) = x.store.byte (wrapStore (at_ n + k)))
        ∧ ∀ a, (a < p * 131072 + d.row0 * len ∨ p * 131072 + (d.row0 + d.nrow) * len ≤ a) →
            y.plates.byte a =
              if p * 131072 ≤ a ∧ a < p * 131072 + 131072 ∧
                  ¬ (if p = 0 then x.forge.weA = d.we ∧ x.forge.pclA = d.pcl else x.forge.weB = d.we ∧ x.forge.pclB = d.pcl)
                then 0 else x.forge.plates.byte a)
  ∧ (∀ (b : BenchId) (f : FmtSeed) (e : Entry) (s : State), forgeHeads s b (.seed f) e → arrayIdle s b →
    completes (.seed b f) s fun t =>
      onlyBench s t b ∧ arrayFrame (s.bench b) (t.bench b) ∧ (t.bench b).forge.tiles = (s.bench b).forge.tiles
        ∧ (t.bench b).forge.residues = (s.bench b).forge.residues
        ∧ ∀ j, j < 128 →
            let v : W32 := e.a.setWidth 32 ^^^ (0x9E3779B9#32 * BitVec.ofNat 32 (j + 1))
            (t.bench b).forge.lane j = if v = 0 then 1 else v)
  ∧ (∀ (b : BenchId) (f : FmtTS) (e : Entry) (s : State), forgeHeads s b (.tsync f) e → wbits e.a 63 34 = 0 →
      (∀ d ∈ (s.bench b).forge.accessing ++ (s.bench b).lathe.queue, d.seq < e.seq → tsyncWaits e.a d = false) →
    completes (.tsync b f) s fun t =>
      let x := s.bench b
      t = s.setBench b { x with
        core := { x.core with results := x.core.results ++ if f.rd = 0 then [] else [(f.rd, 0)] }
        forge := { x.forge with queue := x.forge.queue.drop 1 } })

/-- DRAIN and DRAIN.C write the 64 converted rows into the bench store (DK 1) or into v-registers (DK 0), row i at its place of 07 R218
and R223, and DRAIN.C then clears what it drained (R225). -/
def Obligations.LadleDrain : Prop :=
  ∀ (clear : Bool) (b : BenchId) (f : FmtD) (e : Entry) (s : State),
    forgeHeads s b (.drain clear f) e → ladleIdle s b → (s.bench b).storeFree e = true →
    let d := e.drain clear f
    s.drainFault b e d = none → fusedClean (s.bench b) d → d.dk < 2 →
    completes (if clear then .drainC b f none [] else .drain b f none []) s fun t =>
      let x := s.bench b
      let y := t.bench b
      onlyBench { s.land (.ladle b) with draws := t.draws } t b ∧ y.core = x.core
        ∧ { y.forge with tiles := x.forge.tiles, residues := x.forge.residues, queue := x.forge.queue } = x.forge ∧ y.forge.queue = x.forge.queue.drop 1
        ∧ drainedTiles x.forge y.forge d
        ∧ (d.dk = 0 → y.store = x.store ∧ { y.lathe with v := x.lathe.v } = x.lathe
            ∧ (∀ i j, i < 64 → j < d.n → y.lathe.elem d.ra (d.n * i + j) d.w = x.drainElem x d i j % 2 ^ d.w)
            ∧ ∀ a, (a < elemAt d.ra.toNat 0 d.w ∨ elemAt d.ra.toNat (64 * d.n) d.w ≤ a) → y.lathe.v.byte a = x.lathe.v.byte a)
        ∧ (d.dk = 1 → y.lathe = x.lathe ∧ (drainApart d →
            ∀ a, y.store.byte a = ((List.range 64).foldl
              (fun (m : Memory) i => m.setBytes wrapStore (d.dstAt i) (x.drainRow d i)) x.store).byte a))

/-- A drain with DK 2: carter 2b + 1 takes the next row when its pages translate and its requests are accepted (07 R223, 10 R328); the
drain completes when every row is acknowledged, and DRAIN.C clears what it drained (07 R225). A row that fails is noted, and when every row
handed over has been answered, the drain is held at it with Bus error and the row's DVA (10 R329). -/
def Obligations.LadleHandoff : Prop :=
  (∀ (b : BenchId) (o : LadleOp) (d : Drain) (s s' : State), s.departed = false → (s.bench b).forge.handing = some (o, d) →
      s.mayHand b = true → (∀ m ∈ o.mism, m.at_ ≠ o.rows) → (s.bench b).fusedPoisoned d o.rows = false →
      let a := d.dst + BitVec.ofNat 64 (64 * d.dstr * o.rows)
      s.dvaWriteRow { eng := .ladle b, run := o.rows, el := a } (s.benchHmk b) a ((s.bench b).drainRow d o.rows) = (s', .ok) →
    completes (.ladleRowHandoff b) s fun t =>
      t = s'.setBench b { s'.bench b with forge := { (s'.bench b).forge with ladle := some { o with rows := o.rows + 1 } } })
  ∧ (∀ (b : BenchId) (o : LadleOp) (d : Drain) (s : State), s.departed = false → s.aclock b = true →
      (s.bench b).forge.handing = some (o, d) → (s.bench b).forge.ladleHeld = false → o.failed = none → o.rows = 64 →
      s.settled (.ladle b) = true →
    completes (.drainAckComplete b none) s fun t =>
      let x := s.bench b
      onlyBench (s.land (.ladle b)) t b ∧ { t.bench b with forge := x.forge } = x
        ∧ { (t.bench b).forge with tiles := x.forge.tiles, residues := x.forge.residues, ladle := x.forge.ladle } = x.forge
        ∧ (t.bench b).forge.ladle = none ∧ drainedTiles x.forge (t.bench b).forge d)
  ∧ (∀ (b : BenchId) (o : LadleOp) (d : Drain) (s : State) (i : Nat) (st : ExtStatus), s.departed = false → s.forgeRuns b = true →
      (s.bench b).forge.handing = some (o, d) → (s.bench b).forge.ladleHeld = false → o.failed = none → st ≠ .ok →
      s.runSettled { eng := .ladle b, run := i } = false →
      let u := s.forget fun f => f.who.eng == .ladle b && f.who.run == i
      let c : Cause := { code := 0x04, sub := extSub st, addr := d.dst + BitVec.ofNat 64 (64 * d.dstr * i) }
    completes (.drainAckComplete b (some (i, st))) s fun t =>
      (t.bench b).forge.tiles = (s.bench b).forge.tiles ∧ (t.bench b).forge.queue = (s.bench b).forge.queue
        ∧ if u.settled (.ladle b) = true then
            (t.bench b).forge.ladle = some { entry := o.entry, rows := i } ∧ (t.bench b).forge.ladleHeld = true
              ∧ (t.bench b).forge.frozen = true
              ∧ (t.bench b).core.deferForge = (s.bench b).core.deferForge ++
                  [{ holder := .ladle, cause := c, word := o.entry.instr.word, epc := o.entry.epc, level := o.entry.level }]
          else
            (t.bench b).forge.ladle = some { o with failed := some (i, c) } ∧ (t.bench b).forge.ladleHeld = false
              ∧ (t.bench b).core = (s.bench b).core)

/-- A spare-row request stores its fields, sets PEND and stops dross work, or sets ERR and changes nothing else where 05 R187 refuses it
(R186, R176); the forge applies it at a quiescent point (R186). The injection
bit, a row's count, the governor's grant and a dross step-down change exactly what they name (07 R236; 15 table 15.4, R459).
The grant after a long idle time rests on log 37 (DESIGN CHOICE). -/
def Obligations.SpareRowsAndCounts : Prop :=
  (∀ (b : BenchId) (sp rel : Bool) (row : BitVec 6) (s : State), s.departed = false →
    completes (.spareSwitchRequest b sp rel row) s fun t =>
      t.reg ⟨.frgRowmap, b.val, 0⟩ = s.reg ⟨.frgRowmap, b.val, 0⟩
        ∧ if s.spareRefused b (if sp then 1 else 0) rel row.toNat then
            t = s.setReg ⟨.frgSpareCtl, b.val, 0⟩ (s.reg ⟨.frgSpareCtl, b.val, 0⟩ ||| 0x20000000)
          else
            t.fld .frgSpareCtl b.val 5 0 = row.toNat ∧ t.fld .frgSpareCtl b.val 14 14 = (if rel then 1 else 0)
              ∧ t.fld .frgSpareCtl b.val 15 15 = (if sp then 1 else 0)
              ∧ t.fld .frgSpareCtl b.val 30 30 = 1 ∧ (t.bench b).forge.spare = some (sp, rel, row)
              ∧ (t.bench b).forge.dross = false ∧ t.fld .frgSpareCtl b.val 29 29 = s.fld .frgSpareCtl b.val 29 29)
  ∧ (∀ (b : BenchId) (sp rel : Bool) (row : BitVec 6) (s : State), s.departed = false → s.aclock b = true →
      (s.bench b).forge.quiescent = true → (s.bench b).forge.spare = some (sp, rel, row) →
      (∀ k, k < 2 → s.spareValid b k = true → s.spareRow b k = row.toNat → rel = true) →
    completes (.spareSwitchApply b) s fun t =>
      (t.bench b).forge.spare = none ∧ t.fld .frgSpareCtl b.val 30 30 = 0
        ∧ if rel then ∀ k, k < 2 → s.spareRow b k = row.toNat → t.spareValid b k = false
          else t.spareValid b (if sp then 1 else 0) = true ∧ t.spareRow b (if sp then 1 else 0) = row.toNat
            ∧ t.spareValid b (if sp then 0 else 1) = s.spareValid b (if sp then 0 else 1))
  ∧ (∀ (b : BenchId) (s : State), s.departed = false →
    completes (.residueInject b) s (fun t =>
        t = s.setBench b { s.bench b with forge := { (s.bench b).forge with inject := true } })
      ∧ completes (.rowCountClear b) s (fun t => onlyBench s t b ∧ { t.bench b with forge := (s.bench b).forge } = s.bench b
          ∧ { (t.bench b).forge with rowErr := (s.bench b).forge.rowErr } = (s.bench b).forge
          ∧ ∀ r, Sp.get (fun _ => 0#8) (t.bench b).forge.rowErr r =
              if r = s.fld .cruRowerrSel b.val 6 0 then 0 else Sp.get (fun _ => 0#8) (s.bench b).forge.rowErr r)
      ∧ (s.forgeParked b = true → completes (.forgeRestartGrant b) s fun t =>
          t = s.setBench b { s.bench b with forge := { (s.bench b).forge with granted := true } } ∧ t.forgeParked b = false))
  ∧ ∀ (s : State), s.departed = false → s.rootOn = true →
      completes .drossStepDown s fun t => ∀ b,
        (t.bench b).core = (s.bench b).core ∧ (t.bench b).lathe = (s.bench b).lathe ∧ (t.bench b).store = (s.bench b).store
          ∧ (t.bench b).forge.tiles = (s.bench b).forge.tiles
          ∧ (t.bench b).forge.duty = (s.bench b).forge.duty - (if b ∈ s.drossGroup then 1 else 0)
          ∧ (t.bench b).forge.dross = ((s.bench b).forge.dross && !(decide (b ∈ s.drossGroup) && decide ((s.bench b).forge.duty ≤ 1)))

/-! ## Translation (09) -/

/-- A request that a cached leaf admits leaves the unit as it is (09 R281, R282); a miss whose pair matches a used entry of the
joined-fault table joins it (R291); a walk that ends in a leaf fills every cache that serves the engine (R282).
A faulting walk takes a free entry with the next generation, removes what it covers from every cache and queues its record for the
owning function (09 R290, table 9.8), and the misses of its pair that wait without a record join it (R293); with no free entry or no
quota left it waits without a record (R293); the subcauses of R289 form no entry at all.
What one TRANSLATION_WALK does is the reading of log 46 (DEDUCED). -/
def Obligations.WalksAndFaults : Prop :=
  (∀ (e : Engine) (h : BitVec 12) (dva : W64) (acc : Acc) (s : State), clockOn s →
    (∀ x, (∃ n ∈ engineCaches e, x ∈ s.tcache n ∧ x.serves h (dva.toNat / 65536) acc = true) →
        (∃ c ∈ s.xlat.contexts, c.1 = h) → (∀ n ∈ engineCaches e, ∀ y ∈ s.tcache n, wbits y.leaf 5 4 ≠ 1) →
      completes (.translationWalk e h dva acc) s fun t => t = s)
    ∧ (cacheMiss s e h dva acc → ∀ n, s.faultMatch h (dva.toNat / 65536) = some n →
      completes (.translationWalk e h dva acc) s fun t =>
        let x := s.fault n
        t.fault n = { x with join := if x.join = 0xFF then 0xFF else x.join + 1, waiters := x.waiters ++ [(e, dva)] }
          ∧ (∀ m, m ≠ n → t.fault m = s.fault m) ∧ { t with xlat := { t.xlat with faults := s.xlat.faults } } = s)
    ∧ (cacheMiss s e h dva acc → s.faultMatch h (dva.toNat / 65536) = none →
        ∀ s' leaf pg n, s.walk h dva acc = (s', .leaf leaf pg n) →
      completes (.translationWalk e h dva acc) s fun t =>
        (∀ c ∈ engineCaches e, (t.tcache c).head? = some ⟨h, pg, n, leaf, s'.xlat.epoch⟩
            ∧ (t.tcache c).length ≤ cacheSize c)
          ∧ (∀ c, c ∉ engineCaches e → t.tcache c = s'.tcache c)
          ∧ { t with xlat := { t.xlat with caches := s'.xlat.caches } } = s'))
  ∧ (∀ (e : Engine) (h : BitVec 12) (dva : W64) (acc : Acc) (s s' : State) (sub : Byte), clockOn s →
    cacheMiss s e h dva acc → s.faultMatch h (dva.toNat / 65536) = none → s.walk h dva acc = (s', .fault sub) →
    let page := dva.toNat / 65536
    let f := s'.fnOf h
    let room := s'.freeFaults ≠ [] ∧ s'.faultsHeld f < s'.faultQuota f
    let same (q : QuotaWait) : Bool := q.hmk = h && q.dva.toNat / 65536 = page
    (sub < 7 → room → completes (.translationWalk e h dva acc) s fun t =>
        ∃ n ∈ s'.freeFaults,
          t.fault n = { used := true, gen := (s'.fault n).gen + 1, hmk := h, page, sub
                        join := BitVec.ofNat 8 (min 0xFF (1 + (s'.xlat.quota.filter same).length)), fn := f
                        waiters := (e, dva) :: (s'.xlat.quota.filter same).map fun q => (q.engine, q.dva) }
          ∧ (∀ m, m ≠ n → t.fault m = s'.fault m)
          ∧ (∀ c, ∀ x ∈ t.tcache c, ¬ TCovers x h page)
          ∧ t.xlat.epoch = s'.xlat.epoch ∧ t.xlat.quota = s'.xlat.quota.filter (fun q => !same q) ∧ t.mem = s'.mem ∧ t.regs = s'.regs
          ∧ ∃ stamp, Sp.get (fun _ => []) t.xlat.fltq f.toNat = Sp.get (fun _ => []) s'.xlat.fltq f.toNat ++
              [{ w0 := dva.extractLsb' 16 48 ++ ((s'.fault n).gen + 1) ++ BitVec.ofNat 8 n
                 w1 := 0#4 ++ h ++ sub ++ BitVec.ofNat 4 (accCode acc) ++ BitVec.ofNat 4 (engineId e).1
                   ++ BitVec.ofNat 16 (engineId e).2 ++ 0#16
                 w2 := dva, stamp }])
    ∧ (sub < 7 → ¬ room → completes (.translationWalk e h dva acc) s fun t =>
        t = { s' with xlat := { s'.xlat with quota := s'.xlat.quota ++ [⟨e, h, dva, acc⟩] } })
    ∧ (7 ≤ sub → completes (.translationWalk e h dva acc) s fun t => t = s'))

/-- The records of faults and of errors are written to their rings in order, each with PHASE and the vector that the ring asks for (09
R294, table 9.8; 12 R389, table 12.9). -/
def Obligations.RecordRings : Prop :=
  (∀ (f : FnId) (r : FaultRec) (rest : List FaultRec) (s : State), clockOn s →
      Sp.get (fun _ => []) s.xlat.fltq f.val = r :: rest → s.recRoom faultRing f.val = true →
    completes (.faultRecordWrite f) s fun t =>
      let n := s.reg ⟨.xltFringTail, f.val, 0⟩
      let ph := phaseBit n (log2At4 (s.fld .xltFringCfg f.val 19 16))
      recWritten s t faultRing f [r.w0, r.w1, r.w2, ph ||| r.stamp.setWidth 64]
        ∧ Sp.get (fun _ => []) t.xlat.fltq f.val = rest ∧ t.benches = s.benches ∧ t.mem.dram = s.mem.dram)
  ∧ (∀ (f : FnId) (r : ErrRec) (rest : List ErrRec) (s : State), clockOn s →
      Sp.get (fun _ => []) s.errq f.val = r :: rest → s.recRoom errorRing f.val = true →
    completes (.errorRecordWrite f) s fun t =>
      let n := s.reg ⟨.pexEringTail, f.val, 0⟩
      let ph := phaseBit n (log2At4 (s.fld .pexEringCfg f.val 19 16))
      recWritten s t errorRing f
          [ph ||| (0#8 ++ r.src ++ r.event ++ n), r.hmk ++ r.fn ++ 0#30 ++ r.unit_, r.w2, r.w3]
        ∧ Sp.get (fun _ => []) t.errq f.val = rest ∧ t.benches = s.benches ∧ t.mem.dram = s.mem.dram)

/-- FAULT_RESOLVED frees the entry that GEN and ENTRY name and its engines walk again; FAULT_ABANDONED raises Translation fault in them,
with the entry's subcause; QUOTA_WAIT_RETRY lets the waiting misses walk again; a doorbell that names no entry of its function is
ignored (09 R293, R295-R297). -/
def Obligations.FaultDoorbells : Prop :=
  (∀ (f : FnId) (v : W32) (s : State), clockOn s → s.faultNamed f v = none →
    completes (.faultResolved f v) s (fun t => t = s) ∧ completes (.faultAbandoned f v) s fun t => t = s)
  ∧ (∀ (f : FnId) (v : W32) (s : State) (n : Nat) (b : BenchId) (dva : W64) (e : Entry) (q : List Entry), clockOn s →
      s.faultNamed f v = some n → (s.fault n).waiters = [(.lathe b, dva)] → (s.bench b).lathe.queue = e :: q →
      (s.bench b).lathe.wait = some (.fault n) → s.latheOn b = true →
      let s1 := s.freeFault n
      completes (.faultResolved f v) s (fun t =>
          t = latheRun b e {} (s1.setBench b { s.bench b with lathe := { (s.bench b).lathe with wait := none } }))
        ∧ (s1.fault n).used = false ∧ (s1.fault n).gen = (s.fault n).gen
        ∧ completes (.faultAbandoned f v) s fun t =>
            (t.fault n).used = false ∧ (t.bench b).lathe.frozen = true ∧ (t.bench b).lathe.queue = e :: q
              ∧ (t.bench b).lathe.v = (s.bench b).lathe.v
              ∧ (t.bench b).core.deferLathe = some
                  { holder := .lathe
                    cause := { code := 0x05, sub := (s.fault n).sub, addr := dva
                               info := BitVec.ofNat 32 (s.bench b).lathe.vpi }
                    word := e.instr.word, epc := e.epc, level := e.level })
  ∧ (∀ (f : FnId) (v : W32) (s : State) (n : Nat) (b : BenchId) (dva : W64) (acc : Access), clockOn s →
      s.faultNamed f v = some n → (s.fault n).waiters = [(.core b, dva)] → stalledIn s b (.fault acc (.fault n)) →
      acc.ea.toNat / 65536 = (s.fault n).page →
      let l := s.delegLevel b 0x05 (s.bench b).core.pl
      roomFor s b l = true →
    completes (.faultAbandoned f v) s fun t =>
      entered s t b l 0x05 (s.fault n).sub (s.bench b).core.pc acc.ea 0 ∧ (t.fault n).used = false)
  ∧ (∀ (s : State) (b : BenchId) (e : Entry) (q : List Entry), clockOn s → s.xlat.quota ≠ [] →
      (∀ w ∈ s.xlat.quota, w.engine = .lathe b) → (s.bench b).lathe.queue = e :: q →
      (s.bench b).lathe.wait = some .quota → s.latheOn b = true →
    completes .quotaWaitRetry s fun t =>
      t = latheRun b e {} ({ s with xlat := { s.xlat with quota := [] } }.setBench b
        { s.bench b with lathe := { (s.bench b).lathe with wait := none } }))

/-- A valid INVALIDATE opens a new epoch and removes every cached leaf of its hallmark that meets its range (09 R299, R300); it
completes once no older request in range is in flight, with its epoch in the record, and at once if it names no page (R301). A write of HMK_LOT_DATA is posted, or
dropped while BUSY (R305; 16 R475).
The command carries the descriptor and fetches it from its ring (DEDUCED, log 80). -/
def Obligations.Invalidations : Prop :=
  (∀ (r : RingId) (hd w1 w2 w3 : W64) (c : BitVec 12 × W64 × W64) (s : State), clockOn s → s.servesRing r = true →
      hd.extractLsb' 60 4 = 5 → hd.extractLsb' 32 26 = 0 → s.xlat.inval.length < 64 →
      w1.extractLsb' 12 52 = 0 → w2.extractLsb' 52 12 = 0 → w2.extractLsb' 0 16 = 0 → w3.extractLsb' 36 28 = 0 →
      s.xlat.contexts.find? (fun x => x.1 = w1.setWidth 12) = some c → wbits c.2.2 21 16 = s.ringFn r →
    completes (.invalidate r hd w1 w2 w3) s fun t =>
      let n := s.reg ⟨.cthRingFetch, r.val, 0⟩
      let lo := (w2.extractLsb' 16 36).toNat
      let hi := min (lo + (w3.extractLsb' 0 36).toNat) (2 ^ 36)
      t.xlat.epoch = s.xlat.epoch + 1 ∧ t.reg ⟨.cthRingFetch, r.val, 0⟩ = n + 1
        ∧ (lo < hi → ∀ k, ∀ x ∈ t.tcache k, ¬ (x.hmk = w1.setWidth 12 ∧ x.page < hi ∧ lo < x.page + x.pages))
        ∧ (∀ k, ∀ x ∈ s.tcache k, x.hmk ≠ w1.setWidth 12 → x ∈ t.tcache k)
        ∧ (if lo < hi then ∃ i ∈ t.xlat.inval, i.epoch = s.xlat.epoch + 1 ∧ i.ring = r ∧ i.seq = n
            else t.xlat.inval = s.xlat.inval ∧ ∀ k, t.tcache k = s.tcache k)
        ∧ t.mem.dram = s.mem.dram ∧ t.benches = s.benches)
  ∧ (∀ (i : Invalidation) (e : SEntry) (s : State), clockOn s →
      s.xlat.inval.find? (fun j => j.epoch = i.epoch) = some i → (∀ f ∈ s.underway, i.delayedBy f = false) →
      s.entry i.ring i.seq = some e → (s.ring i.ring).recs ≠ [] →
    completes (.invalidationComplete i.epoch) s fun t =>
      (∀ j ∈ t.xlat.inval, j.epoch ≠ i.epoch) ∧ t.xlat.epoch = s.xlat.epoch
        ∧ (t.ring i.ring).recs = (s.ring i.ring).recs ++ [completionRec e 0 0 0 i.epoch])
  ∧ (∀ (i : Invalidation) (s : State), clockOn s → s.xlat.inval.find? (fun j => j.epoch = i.epoch) = some i →
      (∃ f ∈ s.underway, i.delayedBy f = true) →
    completes (.invalidationComplete i.epoch) s fun t => t = s)
  ∧ ∀ (v : W32) (s : State), clockOn s →
      (s.fld .hmkLotStat 0 0 0 = 0 → completes (.lotEntryWrite v) s fun t =>
        t.fld .hmkLotStat 0 0 0 = 1 ∧ t.mem = s.mem
          ∧ Sp.find t.posted 10 = some (Reg.off ⟨.hmkLotData, 0, 0⟩, v &&& 0xFF000FFF#32, s.fld .hmkLotSel 0 26 0))
      ∧ (s.fld .hmkLotStat 0 0 0 = 1 → completes (.lotEntryWrite v) s fun t =>
        t.fld .mldStatus 0 30 30 = 1 ∧ t.posted = s.posted ∧ t.mem = s.mem
          ∧ (s.fld .mldStatus 0 30 30 = 0 → t.fld .mldStatus 0 23 16 = 10))

/-! ## The ingot and the yard (13) -/

/-- A request at a controller that its lot admits is performed and answered: a read with the stored bytes, a write with exactly its bytes
stored, an atomic operation with the old value and its new one stored (08 R263, R264; 09 R306); one that its lot refuses is answered
with DENIED, stores nothing and is counted (09 R307). The answer of a stack in self-refresh waits in the channel's queue of 128 requests, and
where that is full nothing happens yet (13 R414). A guarded read corrects, writes back and counts one wrong symbol of its line, and answers
an error beyond correction with POISON and counts it (13 R410). -/
def Obligations.MemoryRequests : Prop :=
  ∀ (q : MemReq) (s : State), clockOn s → s.ctrlRequest q = true →
    let r : Requester := { hmk := q.hmk, smask := q.smask }
    ((∃ c, s.sleeps q.dpa = some c ∧ s.chanFull c = true) → completes (.memoryRequest { req := q }) s fun t => t = s)
    ∧ ((∀ c, s.sleeps q.dpa = some c → s.chanFull c = false) →
        (q.watched = false → q.op = .read → dramOk s r q.dpa q.len false = true → completes (.memoryRequest { req := q }) s fun t =>
            memKept s t ∧ servedWith s t q .ok (s.mem.dram.bytes id q.dpa q.len))
        ∧ (∀ d, q.watched = false → q.op = .write d → dramOk s r q.dpa d.length true = true →
            completes (.memoryRequest { req := q }) s fun t =>
              stored s.mem.dram t.mem.dram q.dpa d ∧ t.benches = s.benches ∧ t.regs = s.regs ∧ servedWith s t q .ok [])
        ∧ (∀ e ∈ atomRows, ∀ wide o x, q.watched = false → q.op = .atomic e.aop wide o x →
            let n := if wide then 8 else 4
            dramOk s r q.dpa n false = true → s.dramAllows r q.dpa true = true → completes (.memoryRequest { req := q }) s fun t =>
              let old := s.mem.dram.bytes id q.dpa n
              let new := e.value (8 * n) (BitVec.ofNat (8 * n) (leVal old)) (o.setWidth (8 * n)) (x.setWidth (8 * n))
              stored s.mem.dram t.mem.dram q.dpa (if e.aop = 11 then old else leBytes n new.toNat) ∧ servedWith s t q .ok old)
        ∧ (s.dramAllows r q.dpa (reqWrites q) = false → completes (.memoryRequest { req := q }) s fun t =>
            memKept s t ∧ servedWith s t q .denied []
              ∧ t.fld .hmkDenyStat 0 31 31 = 1
              ∧ (s.fld .hmkDenyStat 0 31 31 = 0 → t.fld .hmkDenyLot 0 31 31 = (if reqWrites q then 1 else 0))
              ∧ t.fld .hmkDenyStat 0 27 16 = min (s.fld .hmkDenyStat 0 27 16 + 1) 4095)
        ∧ ∀ c, q.watched = false → q.op = .read → q.len = 64 → dramOk s r q.dpa 64 false = true → chanOf s q.dpa = some c →
            completes (.memoryRequest { req := q, arisen := [(q.dpa / 64, .one)] }) s (fun t =>
                servedWith s t q .ok (s.mem.dram.bytes id q.dpa 64) ∧ t.mem.dram = s.mem.dram
                  ∧ Sp.find t.mem.lineErr (q.dpa / 64) = none
                  ∧ Sp.get (fun _ => 0) t.mem.corrected c = Sp.get (fun _ => 0) s.mem.corrected c + 1)
              ∧ completes (.memoryRequest { req := q, arisen := [(q.dpa / 64, .many)] }) s fun t =>
                servedWith s t q .poison [] ∧ t.mem.dram = s.mem.dram ∧ Sp.find t.mem.lineErr (q.dpa / 64) = some .many
                  ∧ Sp.get (fun _ => 0) t.mem.uncorrected c = Sp.get (fun _ => 0) s.mem.uncorrected c + 1)

/-- Scrubbing tests the next line of its channel and wraps at the channel's end; it corrects and counts one wrong symbol, and leaves what it
cannot correct (13 R412); a refresh interval frees the channel's slice
(R413); a group rises at once to the band of its temperature and falls by one band after ten readings 3 degrees below its lower edge
(R416); a channel loads the set of its group's band (R415); drift and the period schedule a retrain (R418); a slice yields new settings
or counts a failure, and the third in a row marks the channel FAILED (R419).
Settings are numbered by the model (DESIGN CHOICE, log 88). -/
def Obligations.ControllerServices : Prop :=
  (∀ (c : Channel) (s : State), clockOn s → s.chanUp c.num = true →
    let n := c.num
    (s.scrubOf n ≠ 0 →
      let off := Sp.get (fun _ => 0) s.mem.serv.scrub n
      let next := fun (t : State) =>
        Sp.get (fun _ => 0) t.mem.serv.scrub n = if off + 128 < s.chanBytes n then off + 128 else 0
      let errs := s.mem.lineErr.filter fun e => s.lineAt n off e.1
      let watched := s.mem.watched.filter fun e => s.lineAt n off e.1
      (errs = [] → watched = [] → completes (.scrubRead c []) s fun t => memKept s t ∧ t.regs = s.regs ∧ next t)
        ∧ (∀ l, errs = [(l, .one)] → watched = [] → completes (.scrubRead c []) s fun t => t.mem.dram = s.mem.dram ∧ next t
          ∧ Sp.get (fun _ => 0) t.mem.corrected n = Sp.get (fun _ => 0) s.mem.corrected n + 1
          ∧ ∀ k, s.lineAt n off k = true → Sp.find t.mem.lineErr k = none)
        ∧ ((∃ l, (l, LineErr.many) ∈ errs) → completes (.scrubRead c []) s fun t => memKept s t ∧ next t))
    ∧ completes (.refresh c) s (fun t => memKept s t ∧ n ∉ t.mem.serv.sliced
        ∧ ∀ m, m ≠ n → (m ∈ t.mem.serv.sliced ↔ m ∈ s.mem.serv.sliced))
    ∧ (sliceFree s n = true →
      let b := if n < 128 then 0 else s.band ((n - 128) / 32)
      completes (.retrainSlice c .more) s (fun t => memKept s t ∧ n ∈ t.mem.serv.sliced ∧ t.mem.serv.sets = s.mem.serv.sets
          ∧ t.mem.serv.retrain = s.mem.serv.retrain)
      ∧ completes (.retrainSlice c .done) s (fun t => memKept s t ∧ n ∈ t.mem.serv.sliced ∧ n ∉ t.mem.serv.retrain
          ∧ t.setting n b = s.mem.serv.trainings + 1 ∧ ∀ k j, j < 4 → ¬ (k = n ∧ j = b) → t.setting k j = s.setting k j)
      ∧ completes (.retrainSlice c .failed) s (fun t => memKept s t ∧ n ∉ t.mem.serv.retrain ∧ t.mem.serv.sets = s.mem.serv.sets
          ∧ Sp.get (fun _ => 0) t.mem.serv.fails n = Sp.get (fun _ => 0) s.mem.serv.fails n + 1
          ∧ (128 ≤ n → 2 ≤ Sp.get (fun _ => 0) s.mem.serv.fails n →
              t.fld .yrdGrpFail ((n - 128) / 32) ((n - 128) % 32) ((n - 128) % 32) = 1))))
  ∧ (∀ (g : Fin 8) (d : Int) (s : State), clockOn s → s.groupUp g.val = true →
    completes (.deviceTempReadout g d) s fun t =>
      let b := s.band g.val
      let cool := if b ≠ 0 ∧ d ≤ bandEdge (b - 1) - 3 then Sp.get (fun _ => 0) s.mem.serv.cool g.val + 1 else 0
      memKept s t ∧
        if b < bandOf d then t.band g.val = bandOf d ∧ Sp.get (fun _ => 0) t.mem.serv.cool g.val = 0
        else if 10 ≤ cool then t.band g.val = b - 1 ∧ Sp.get (fun _ => 0) t.mem.serv.cool g.val = 0
        else t.band g.val = b ∧ Sp.get (fun _ => 0) t.mem.serv.cool g.val = cool)
  ∧ ∀ (g : Fin 8) (c : Fin 32) (s : State), clockOn s → s.chanUp (yardChan g c) = true →
      completes (.temperSetLoad g c) s (fun t => memKept s t ∧ t.regs = s.regs
          ∧ Sp.find t.mem.serv.loaded (yardChan g c) = some (s.band g.val, s.setting (yardChan g c) (s.band g.val)))
      ∧ (∀ diff, completes (.driftCheck g c diff) s fun t => memKept s t ∧ t.regs = s.regs
          ∧ (yardChan g c ∈ t.mem.serv.retrain ↔ yardChan g c ∈ s.mem.serv.retrain ∨ s.fld .yrdRetrain 0 5 0 < diff))
      ∧ completes (.periodicRetrain g c) s fun t => memKept s t ∧ t.regs = s.regs
          ∧ (yardChan g c ∈ t.mem.serv.retrain ↔ yardChan g c ∈ s.mem.serv.retrain ∨ s.fld .yrdRetrain 0 31 16 ≠ 0)

/-- Row repair of a row with ROWCE corrected errors takes a spare row of its bank and a slice (13 R420); relief begins for a channel of a group with a reserve, copies line by
line and ends with the channel out of service, no byte of the address space changing (R421-R423); margins are posted, and answered in a slice of their channel (R424);
a stack of a shop at level 4 enters self-refresh (R414).
Bring-up of a stack or of a valid group puts it into service with every line of its channels 0, and changes no byte elsewhere (13
R400, R411, R417). A group whose configuration the yard cannot bring up sets CFGERR. -/
def Obligations.RepairReliefBringup : Prop :=
  ((∀ (k : ShopId) (c : Fin 8) (bank : BitVec 4) (row : BitVec 24) (s : State), clockOn s → s.chanUp (8 * k.val + c.val) = true →
      s.mem.serv.sliced.contains (8 * k.val + c.val) = false → s.repaired (8 * k.val + c.val) bank.toNat < 4 →
      s.fld .ingCfg 0 25 16 ≤ s.rowCount (8 * k.val + c.val) bank.toNat row.toNat →
    completes (.ingotRowRepair k c bank row) s fun t => memKept s t
      ∧ t.mem.serv.repairs = s.mem.serv.repairs ++ [(8 * k.val + c.val, bank.toNat, row.toNat)]
      ∧ 8 * k.val + c.val ∈ t.mem.serv.sliced ∧ t.rowCount (8 * k.val + c.val) bank.toNat row.toNat = 0
      ∧ t.sec.entries = s.sec.entries ++ [0#80 ++ row ++ bank ++ BitVec.ofNat 4 c.val ++ BitVec.ofNat 8 k.val ++ 1#8])
  ∧ (∀ (g : Fin 8) (c : Fin 32) (rate : Byte) (s : State), clockOn s →
      (s.reliefRefused g.val c.val = true → completes (.reliefGo g c rate) s fun t =>
        t = s.setReg ⟨.yrdReliefCtl, 0, 0⟩ (s.reg ⟨.yrdReliefCtl, 0, 0⟩ ||| 0x20000000))
      ∧ (s.reliefRefused g.val c.val = false → completes (.reliefGo g c rate) s fun t =>
        memKept s t ∧ t.mem.serv.relief = some { g := g.val, ch := c.val } ∧ t.fld .yrdReliefCtl 0 30 30 = 1
          ∧ t.fld .yrdReliefCtl 0 18 16 = g.val ∧ t.fld .yrdReliefCtl 0 12 8 = c.val ∧ t.fld .yrdReliefCtl 0 7 0 = rate.toNat
          ∧ t.reg ⟨.yrdReliefStat, 0, 0⟩ = 0))
  ∧ (∀ (x : Relief) (s : State), clockOn s → s.mem.serv.relief = some x → x.g < 8 → x.ch < 32 →
      (x.wm + 1 < s.spreadLines x.g → completes .reliefLineCopy s fun t => memKept s t
        ∧ t.mem.serv.relief = some { x with wm := x.wm + 1 } ∧ t.reg ⟨.yrdReliefStat, 0, 0⟩ = BitVec.ofNat 32 (x.wm + 1))
      ∧ (s.spreadLines x.g ≤ x.wm + 1 → completes .reliefLineCopy s fun t => memKept s t ∧ t.mem.serv.relief = none
        ∧ t.fld .yrdReliefCtl 0 30 30 = 0 ∧ t.fld .yrdGrpFail x.g x.ch x.ch = 1))
  ∧ (∀ (v : W32) (s : State), clockOn s →
      (s.fld .yrdMarginCtl 0 30 30 = 0 → completes (.marginPoint v) s fun t => memKept s t ∧ t.fld .yrdMarginCtl 0 30 30 = 1
          ∧ (Sp.find t.posted 14).isSome = true)
      ∧ (s.mem.serv.margin = true → s.marginChan ∉ s.mem.serv.sliced → completes (.marginResult v) s fun t => memKept s t
          ∧ t.mem.serv.margin = false ∧ s.marginChan ∈ t.mem.serv.sliced
          ∧ t.reg ⟨.yrdMarginRes, 0, 0⟩ = v ∧ t.fld .yrdMarginCtl 0 30 30 = 0))
  ∧ ∀ (k : ShopId) (s : State), clockOn s → s.stackUp k.val = true → s.fld .shlShopStat k.val 28 26 = 4 →
      k ∉ s.mem.serv.selfRef →
    completes (.selfRefreshEntry k) s fun t => memKept s t ∧ t.mem.serv.selfRef = k :: s.mem.serv.selfRef
      ∧ t.fld .shlShopStat k.val 16 16 = 1)
  ∧ ((∀ (k : ShopId) (fs : List (Fin 32)) (tr : BitVec 4) (bd : BitVec 2) (s : State), clockOn s → s.stackUp k.val = false →
      s.sec.unverified = none →
    completes (.groupBringup (.stack k) fs tr bd) s fun t => t.stackUp k.val = true
      ∧ (∀ j, j ≠ k.val → t.stackUp j = s.stackUp j)
      ∧ (∀ a c, chanOf t a = some c → c < 128 → c / 8 = k.val → t.mem.dram.byte a = 0)
      ∧ ∀ a, (∀ c, chanOf t a = some c → c < 128 → c / 8 ≠ k.val) → t.mem.dram.byte a = s.mem.dram.byte a)
  ∧ ∀ (g : Fin 8) (fs : List (Fin 32)) (tr : BitVec 4) (bd : BitVec 2) (s : State), clockOn s → s.groupUp g.val = false →
      s.sec.unverified = none → s.firmwareIn = true → s.fld .yrdGrpCfg g.val 31 31 = 1 →
      (s.grpValid g.val = true → s.recordRelief g.val = none →
        completes (.groupBringup (.group g) fs tr bd) s fun t => t.groupUp g.val = true ∧ t.band g.val = bd.toNat
          ∧ (∀ c ∈ fs, t.fld .yrdGrpFail g.val c.val c.val = 1)
          ∧ (∀ a c, chanOf t a = some c → 128 ≤ c → (c - 128) / 32 = g.val → t.mem.dram.byte a = 0)
          ∧ ∀ a, (∀ c, chanOf t a = some c → 128 ≤ c → (c - 128) / 32 ≠ g.val) → t.mem.dram.byte a = s.mem.dram.byte a)
      ∧ (s.grpValid g.val = false → completes (.groupBringup (.group g) fs tr bd) s fun t =>
          t.fld .yrdStatus 0 31 31 = 1 ∧ memKept s t ∧ t.groupUp g.val = false))

/-! ## Carters and hoppers (10) -/

/-- MOVE, GATHER, SCATTER and FILL between bench stores: element by element in index order, each destination takes its source's bytes (10
R315, R316, R320), and no other byte of a bench store changes; the run has then issued its last request. While the other feed has work as
well, the run moves the elements of one 64-byte unit, and the feeds alternate (R310; DESIGN CHOICE, log 149). -/
def Obligations.CarterElements : Prop :=
  ∀ (c : CarterId) (loc : Bool) (r : Run) (b : BenchId) (s : State), feedRuns s c loc r → r.next = 0 → r.undo = [] →
    r.st = .running → r.idx = none → r.got = [] → s.feedTurn c loc = true →
    (∀ g n k, r.src ≠ .part g n k) → dType r.words < 4 → dLes r.words < 7 → dDk r.words = 1 → (dType r.words = 3 ∨ dSk r.words = 1) →
    (dType r.words = 1 ∨ dType r.words = 2 → carterBench c = some b ∧ wordBits r.words 3 16 16 = 0) →
    (∀ n, n < dCount r.words → elemClear s b r n) → runApart s b r →
    let m := if s.feedWork c (!loc) = true then min (64 / dSize r.words) (dCount r.words) else dCount r.words
    completes (if dType r.words = 0 then .move c loc else if dType r.words = 1 then .gather c loc
        else if dType r.words = 2 then .scatter c loc else .fill c loc) s fun t =>
      (∃ u, runNow s t c loc { r with next := m, st := if m = dCount r.words then .issued else .running, undo := u })
        ∧ (t.carter c).last = some loc
        ∧ (∀ x a, (t.bench x).store.byte a =
            if x = benchOf (dDb r.words) then
              ((List.range m).foldl (fun (m : Memory) n =>
                m.setBytes wrapStore ((elemTarget s b r n).toNat % 0x200000) (elemData s b r n)) (s.bench x).store).byte a
            else (s.bench x).store.byte a)
        ∧ (∀ x, (t.bench x).core = (s.bench x).core ∧ (t.bench x).lathe = (s.bench x).lathe ∧ (t.bench x).forge = (s.bench x).forge)
        ∧ t.mem = s.mem ∧ t.regs = s.regs ∧ t.hoppers = s.hoppers

/-- A local ring: a doorbell change starts the slot at HEAD plus the descriptors begun, unless HEAD meets TAIL (10 R313); completion writes
HEAD and rings CBELL (R325); failure writes ERR, stops the ring and rings EBELL (R324); a read or a write without an answer fails with TIMEOUT (R326); a NOP
issues nothing. A foreman-feed copy ends its entry. Carters and local rings that are disabled stop as R341 and R529 state, and a launch
copy's part goes to its carter (R318). -/
def Obligations.CarterRings : Prop :=
  (∀ (c : CarterId) (b : BenchId) (s : State), clockOn s → carterBench c = some b → s.carterOn c = true →
      s.carterFld c 2 31 31 = 1 → s.carterFld c 3 24 24 = 0 → (s.carter c).ringWait = none → s.ringsBegin (s.carterSlot c) = true →
      let x := s.carter c
      let bell := BitVec.ofNat 16 (s.carterFld c 2 15 0)
      (x.seen ≠ s.bell bell ∨ x.reread = true) → s.bellAllows (s.localHmk c) bell = true → blockOpen s c b 0 128 →
      let cb := wordsOf 4 (ringBytes s c b 0 128)
      let n : W32 := (cb.getD 1 0).setWidth 32 + BitVec.ofNat 32 x.loc.length
      let off := 128 * (1 + n.toNat % 2 ^ ringLog (s.carterFld c 2 19 16))
      let w := wordsOf 16 (ringBytes s c b off 128)
      (cb.getD 2 0).getLsbD 63 = false → s.curRun c true = none →
      (n = (cb.getD 0 0).setWidth 32 → completes (.carterDoorbellWake c) s fun t =>
          t.carter c = { x with seen := s.bell bell, reread := false, err := false, word3 := cb.getD 3 0 } ∧ { t with carters := s.carters } = s)
      ∧ (n ≠ (cb.getD 0 0).setWidth 32 → blockOpen s c b off 128 → (x.loc = [] ∨ wordBits w 0 53 53 = 0) →
          dWellFormed w true true = true → dEndpoints c true w = true → dAligned w = true →
          completes (.carterDoorbellWake c) s fun t =>
            t.carter c = { x with seen := s.bell bell, reread := false, err := false, word3 := cb.getD 3 0, serial := x.serial + 1
                                  loc := x.loc ++ [{ id := x.serial + 1, src := .ring n, words := w, hmk := s.localHmk c }] }
              ∧ { t with carters := s.carters } = s))
  ∧ (∀ (c : CarterId) (b : BenchId) (r : Run) (rest : List Run) (n : W32) (s : State), clockOn s → carterBench c = some b →
      (s.carter c).loc = r :: rest → r.src = .ring n → s.runQuiet c r = true → (s.carter c).ringWait = none →
      (r.st = .issued → s.guardedAll b ((s.carterBase c + 8) % 0x200000) 4 = false →
        completes (.descriptorComplete c true) s fun t => blockWritten s t c b 8 (leBytes 4 (n + 1).toNat)
          ∧ (t.carter c).loc = rest ∧ (t.carter c).reread = true
          ∧ (dRings r.words = true → rung s t r.hmk (dBell r.words) (dInc r.words))
          ∧ (dRings r.words = false → t.belfry = s.belfry))
      ∧ (∀ code sub addr, r.st = .failed code sub addr → s.guardedAll b ((s.carterBase c + 16) % 0x200000) 8 = false →
          code.toNat < 128 → sub.toNat < 16 →
        completes (.descriptorFail c true) s fun t =>
          blockWritten s t c b 16 (leBytes 8 (1#1 ++ code.extractLsb' 0 7 ++ sub.extractLsb' 0 4 ++ addr.extractLsb' 0 52).toNat)
          ∧ (t.carter c).loc = [] ∧ (t.carter c).err = true
          ∧ ((s.carter c).word3.getLsbD 16 = true → rung s t r.hmk ((s.carter c).word3.setWidth 16) 1)
          ∧ ((s.carter c).word3.getLsbD 16 = false → t.belfry = s.belfry)))
  ∧ (∀ (c : CarterId) (r : Run) (rest : List Run) (g : RingId) (n : W32) (e : SEntry) (s : State), clockOn s →
      (s.carter c).fore = r :: rest → r.src = .copy g n → s.runQuiet c r = true → s.entry g n = some e →
      (r.st = .issued → (dRings r.words = true → s.bellAllows r.hmk (dBell r.words) = true) →
        completes (.descriptorComplete c false) s fun t => ended s t g e 0 0 0 ∧ (t.carter c).fore = rest)
      ∧ (∀ code sub addr, r.st = .failed code sub addr → completes (.descriptorFail c false) s fun t =>
          ended s t g e stCopyError code.toNat addr ∧ (t.carter c).fore = rest))
  ∧ (∀ (c : CarterId) (loc : Bool) (r : Run) (s : State), s.departed = false → s.curRun c loc = some r →
      (∀ a, r.st = .wait .ext a → (loc = true → (s.carter c).ringWait = none) →
          (∀ q ∈ (s.carter c).runs loc, s.sentWrite c q = none) → completes (.carterRequestTimeout c loc) s fun t =>
          runNow s t c loc { r with st := .failed 9 0 a } ∧ { t with carters := s.carters } = s.landRun c r)
      ∧ (feedRuns s c loc r → dType r.words = 15 → completes (.carterNop c loc) s fun t =>
          runNow s t c loc { r with st := .issued } ∧ { t with carters := s.carters } = s))
  ∧ (∀ (c : CarterId) (loc : Bool) (r : Run) (f : Flight) (s : State), s.departed = false → (s.carter c).runs loc = [r] →
      r.loc = loc → (loc = true → (s.carter c).ringWait = none) → s.sentWrite c r = some f →
    completes (.carterRequestTimeout c loc) s fun t =>
      (t.carter c).runs loc = [r.failAt f.who.n 9 0 f.who.el] ∧ f ∉ t.mem.acks ∧ t.mem.dram = s.mem.dram ∧ t.benches = s.benches)
  ∧ (∀ (c : CarterId) (s : State), clockOn s →
      (s.carterFld c 3 31 31 = 0 → s.carterFld c 3 29 29 = 1 → completes (.carterDisable c) s fun t =>
        t.carterFld c 3 31 31 = 1 ∧ t.carterFld c 3 29 29 = 0 ∧ t.carterFld c 4 31 31 = 0 ∧ (t.carter c).loc = []
          ∧ (t.carter c).fore.length = (s.carter c).fore.length
          ∧ (∀ r ∈ (t.carter c).fore, r.st = .issued ∨ ∃ code sub addr, r.st = .failed code sub addr)
          ∧ t.benches = s.benches ∧ t.mem = s.mem ∧ t.rings = s.rings)
      ∧ (s.carterFld c 2 31 31 = 1 → completes (.localRingDisable c) s fun t =>
        t.carterFld c 2 31 31 = 0 ∧ t.carterFld c 3 24 24 = (if s.localBusy c then 1 else 0) ∧ (t.carter c).loc = []
          ∧ (t.carter c).fore = (s.carter c).fore ∧ t.benches = s.benches ∧ t.mem = s.mem ∧ t.rings = s.rings))
  ∧ (∀ (n : SlotId) (e : SEntry) (p : Nat) (b : BenchId) (c : CarterId) (s : State), clockOn s →
      let k := s.kernel n
      let ready := fun (e : SEntry) =>
        e.parts.find? fun p => match k.benches[p]? with | some b => k.written.contains b | none => false
      (s.ring k.ring).entries.find? (fun e => e.st == .begun && e.type == 2 && (ready e).isSome) = some e → ready e = some p →
      k.benches[p]? = some b → s.partCarter k.benches p b = some c → 4 ≤ (e.words.drop 1).length → dDb (e.words.drop 1) = 0 →
    completes (.launchCopyPart n) s fun t =>
      (∃ x, (t.carter c).fore = (s.carter c).fore ++ [x] ∧ x.src = .part k.ring e.n p ∧ x.hmk = s.streamHmk k.ring
          ∧ dDb x.words = b.val)
        ∧ (∀ x ∈ (t.ring k.ring).entries, x.n = e.n → p ∉ x.parts ∧ p ∈ x.running))

/-- Hoppers: a put appends its unit to the ring's open packet, which closes at its limit, at a full hopper or at CLOSE (10 R332); a take
claims units in order once enough are visible (R333); MARK, REWIND, RELEASE and MARK_AND_RELEASE move the pointers (R335, R336); takes
that have read advance REL with AREL (R335); a closed packet rings NBELL (R337); an idle packet closes with VQC (R338); a disabled hopper
drains and refuses what waits (R341). What a put spills is named (R330).
The readings of logs 53 to 55 (DEDUCED) and of log 148 (DESIGN CHOICE: which unit spills) hold here. -/
def Obligations.Hoppers : Prop :=
  (∀ (c : CarterId) (loc : Bool) (r : Run) (s : State), feedRuns s c loc r → dType r.words = 3 → dDk r.words = 5 →
      dLes r.words ≤ 6 → r.next < dCount r.words →
      let h := hopperOf (wordBits r.words 3 29 20)
      let x := s.hopper h
      r.got = [] → s.feedTurn c loc = true → s.hopRefuses h r.hmk = none → x.fill ≠ s.hopCap h →
      (x.open_ = some (c, loc) ∨ x.open_ = none ∧ (x.putters = [] ∨ x.putters.head? = some (c, loc))) →
    completes (.hopperPutUnit c loc) s fun t =>
      let y := t.hopper h
      let last := dCount r.words ≤ r.next + unitElems r.words
      let closes := (x.wr + 1 - x.vis).toNat = s.fld .hopCfg h.val 19 8 + 1 ∨ (x.wr + 1 - x.rel).toNat = s.hopCap h
        ∨ (last ∧ wordBits r.words 3 19 19 = 1)
      y.wr = x.wr + 1 ∧ y.rd = x.rd ∧ y.rel = x.rel ∧ y.mark = x.mark
        ∧ (closes → y.vis = x.wr + 1 ∧ y.open_ = none)
        ∧ (¬ closes → y.vis = x.vis ∧ y.open_ = some (c, loc))
        ∧ (∀ j, j < 64 → y.data.byte (64 * s.hopSlot h x.wr + j) =
            (r.words.getD 4 0).extractLsb' (8 * (j % min (dSize r.words) 8)) 8)
        ∧ runNow s t c loc
            { r with next := r.next + unitElems r.words, idx := none, got := [], st := if last then .issued else .running }
        ∧ (x.fill < 32 → y.spilled = x.spilled ∧ { t with carters := s.carters, hoppers := s.hoppers } = s
            ∧ ∀ a, (a < 64 * s.hopSlot h x.wr ∨ 64 * s.hopSlot h x.wr + 64 ≤ a) → y.data.byte a = x.data.byte a)
        ∧ (32 ≤ x.fill → y.spilled = x.spilled ++ [s.hopSlot h (x.wr - 16)]))
  ∧ (∀ (c : CarterId) (loc : Bool) (r : Run) (s : State), feedRuns s c loc r → (dType r.words = 0 ∨ dType r.words = 2) →
      dSk r.words = 5 → r.claim = none →
      let h := hopperOf (wordBits r.words 3 39 30)
      let x := s.hopper h
      let n := dCount r.words * dSize r.words / 64
      s.hopRefuses h r.hmk = none → (x.takers = [] ∨ x.takers.head? = some (c, loc)) → n ≤ (x.vis - x.rd).toNat →
    completes (.hopperTake c loc) s fun t =>
      hopperNow s t h { x with rd := x.rd + BitVec.ofNat 64 n, takers := x.takers.tail
                               claims := x.claims ++ [{ carter := c, loc, lo := x.rd, n }] }
        ∧ runNow s t c loc { r with claim := some x.rd, st := .running })
  ∧ (∀ (c : CarterId) (loc : Bool) (r : Run) (s : State),
      let h := hopperOf (wordBits r.words 3 39 30)
      let x := s.hopper h
      let done := fun (t : State) => runNow s t c loc { r with st := .issued }
      let y := { x with takers := leaveRing x.takers (c, loc) }
      (hopctlRuns s c loc r 0 → completes (.mark c loc) s fun t => hopperNow s t h { y with mark := x.rd } ∧ done t)
      ∧ (hopctlRuns s c loc r 1 → completes (.rewind c loc) s fun t => hopperNow s t h { y with rd := x.mark } ∧ done t)
      ∧ (hopctlRuns s c loc r 2 → x.allRead x.mark = true → completes (.release c loc) s fun t =>
          hopperNow s t h (s.freeUnits h x.mark y) ∧ (t.hopper h).rel = x.mark ∧ done t)
      ∧ (hopctlRuns s c loc r 3 → x.allRead x.rd = true → completes (.markAndRelease c loc) s fun t =>
          hopperNow s t h (s.freeUnits h x.rd { y with mark := x.rd }) ∧ (t.hopper h).rel = x.rd ∧ (t.hopper h).mark = x.rd ∧ done t)
      ∧ (hopctlRuns s c loc r 2 → x.allRead x.mark = false → completes (.release c loc) s fun t =>
          t.hopper h = y ∧ runNow s t c loc { r with st := .hop, claim := some x.mark })
      ∧ (hopctlRuns s c loc r 3 → x.allRead x.rd = false → completes (.markAndRelease c loc) s fun t =>
          t.hopper h = { y with mark := x.rd } ∧ runNow s t c loc { r with st := .hop, claim := some x.rd }))
  ∧ ∀ (h : HopperId) (s : State), clockOn s →
      let x := s.hopper h
      (s.hopOn h = true → s.fld .hopCfg h.val 30 30 = 1 → x.open_.isSome = true → completes (.idleTimeoutClose h) s fun t =>
          hopperNow s t h { x with
            vis := x.wr, open_ := none
            notices := if s.fld .hopCfg h.val 28 28 = 1 then x.notices ++ [(x.wr - x.vis).toNat] else x.notices })
      ∧ (s.fld .hopCfg h.val 29 29 = 1 → completes (.autoRelease h) s fun t =>
          (t.hopper h).rel = readPrefix x.rel x.claims ∧ (t.hopper h).mark = readPrefix x.rel x.claims
            ∧ (t.hopper h).wr = x.wr ∧ (t.hopper h).vis = x.vis ∧ (t.hopper h).rd = x.rd
            ∧ { t with hoppers := s.hoppers } = s)
      ∧ (∀ n rest, x.notices = n :: rest → completes (.hopperNotice h) s fun t =>
          (t.hopper h).notices = rest
            ∧ rung s t (BitVec.ofNat 12 (s.fld .hopOwn h.val 11 0)) (BitVec.ofNat 16 (s.fld .hopOwn h.val 31 16))
                (if s.fld .hopCfg h.val 27 27 = 1 then BitVec.ofNat 32 n else 1))
      ∧ (s.fld .hopStatus h.val 31 31 = 0 → s.fld .hopStatus h.val 29 29 = 1 → completes (.hopperDisable h) s fun t =>
          t.hopOn h = false ∧ t.fld .hopStatus h.val 31 31 = 1 ∧ t.fld .hopCfg h.val 31 31 = 0 ∧ (t.hopper h).takers = [] ∧ (t.hopper h).putters = []
            ∧ (t.hopper h).data = x.data ∧ t.benches = s.benches ∧ t.mem = s.mem)

/-! ## Streams and kernels (11, 12) -/

/-- A valid tail doorbell moves the tail and an invalid one writes BAD_DOORBELL (12 R380); a fetch turn passes on the next descriptor and
advances FETCH (11 R353; 12 R383), binding its stream to a free slot unless its hallmark is 0 (11 R354; 09 R276); NOP, BWAIT, BRING and COPY
begin in order and end with their statuses (11 R355; 12 R385, R386); records fill the completion queue (12 R387) and vectors are sent or
become pending (12 R391); halts end (R530); a disabled ring flushes what has not begun, and what a turn in progress still reads (R386).
That an entry under hallmark 0 is REFUSED, and that RING_DISABLE carries the turn it meets, are the model's (DESIGN CHOICE, logs 151, 152). -/
def Obligations.StreamEntries : Prop :=
  (∀ (f : FnId) (r : RingId) (v : W32) (s : State), clockOn s → s.doorbellServes f = true → s.ringFn r = f.val →
      let d := (v - s.reg ⟨.cthRingFetch, r.val, 0⟩).toNat
      let size := 2 ^ max 4 (s.fld .cthRingCfg r.val 23 20)
      (d ≤ size → completes (.ringTailDoorbell f r v) s fun t =>
          t.ring r = { s.ring r with tail := v } ∧ { t with rings := s.rings } = s)
      ∧ (size < d → completes (.ringTailDoorbell f r v) s fun t =>
          reported s t { src := 8, event := 5, fn := BitVec.ofNat 6 f.val, unit_ := BitVec.ofNat 16 r.val }
            ∧ { t with errq := s.errq } = s)
      ∧ completes (.cqHeadDoorbell f r v) s fun t =>
          t.ring r = { s.ring r with cqHead := v } ∧ { t with rings := s.rings } = s)
  ∧ (∀ (host : Cells) (r : RingId) (s : State), clockOn s → s.nextRing = some r →
      let n := s.reg ⟨.cthRingFetch, r.val, 0⟩
      let m := s.mem.host.setCells host
      let a := s.base52 .cthRingBaseLo .cthRingBaseHi r.val 8 + 256 * (n.toNat % 2 ^ max 4 (s.fld .cthRingCfg r.val 23 20))
      let ty := leVal (m.bytes id a 8) / 2 ^ 60 % 16
      let e : SEntry := { n, words := wordsOf (descBytes ty / 8) (m.bytes id a (descBytes ty)), pre := (s.ring r).copies }
      let e := { e with preFailed := (s.ring r).lostCopies.any e.needs }
      (s.ring r).tail = n + 1 → ty ≠ 5 →
      (((s.ring r).slot = none → s.ringHmk r ≠ 0) → completes (.fetchTurn host) s fun t =>
        t.reg ⟨.cthRingFetch, r.val, 0⟩ = n + 1 ∧ (t.ring r).entries = (s.ring r).entries ++ [e]
          ∧ (t.ring r).copies = (if ty = 2 then (s.ring r).copies + 1 else 0)
          ∧ (∀ k, (s.ring r).slot = some k → (t.ring r).slot = some k)
          ∧ ((s.ring r).slot = none → ∃ k, (t.ring r).slot = some k ∧ s.slotState k = 0 ∧ t.slotState k = 1
              ∧ t.streamFn r = s.ringFn r ∧ t.streamHmk r = s.ringHmk r
              ∧ t.fld .fmnSlotStat k.val 23 12 = (s.ringHmk r).toNat ∧ t.fld .fmnSlotStat k.val 11 0 = r.val)
          ∧ t.benches = s.benches ∧ t.mem.host = m ∧ t.mem.dram = s.mem.dram)
      ∧ ((s.ring r).slot = none → s.ringHmk r = 0 → (∀ x ∈ (s.ring r).entries, x.n ≠ n) → completes (.fetchTurn host) s fun t =>
        t.reg ⟨.cthRingFetch, r.val, 0⟩ = n + 1 ∧ (t.ring r).slot = none ∧ ended s t r e 1 0 0
          ∧ (∀ k : SlotId, t.slotState k = s.slotState k) ∧ t.benches = s.benches)
      ∧ ((∀ x ∈ (s.ring r).entries, x.n ≠ n) → ((s.ring r).entries.map (·.n)).Nodup →
        completes (.ringDisable { ring := r, turn := some host }) s fun t =>
          t.reg ⟨.cthRingFetch, r.val, 0⟩ = n + 1 ∧ t.fld .cthRingCfg r.val 31 30 = 1
            ∧ (∀ x ∈ (t.ring r).entries, x.st ≠ .fetched)
            ∧ (t.ring r).recs = (s.ring r).recs ++
                ((s.ring r).entries.filter fun x => x.st == .fetched).map (fun x => completionRec x 7 0 0 0) ++ [completionRec e 7 0 0 0]
            ∧ (t.ring r).slot = (s.ring r).slot ∧ t.benches = s.benches ∧ t.mem.host = m ∧ t.mem.dram = s.mem.dram))
  ∧ (∀ (r : RingId) (e : SEntry) (s : State),
      (begins s r (fun e => e.type == 0 || decide (6 ≤ e.type)) e → completes (.nop r) s fun t =>
          ended s t r e (if e.type = 0 then 0 else 1) 0 0 ∧ devicesKept s t)
      ∧ (begins s r (fun e => e.type == 3) e →
          let bell := BitVec.ofNat 16 (wordBits e.words 1 63 48)
          let goal : W32 := BitVec.ofNat 32 (wordBits e.words 1 31 0)
          completes (.bwait r) s fun t => devicesKept s t ∧ t.belfry = s.belfry
            ∧ (if s.bellAllows (s.streamHmk r) bell = false then ended s t r e 1 0 0
               else if met (s.bell bell) goal then ended s t r e 0 0 0 else begunAs s t r e fun y => { y with st := .begun }))
      ∧ (begins s r (fun e => e.type == 4) e →
          let bell := BitVec.ofNat 16 (wordBits e.words 1 63 48)
          let v : W32 := BitVec.ofNat 32 (wordBits e.words 1 31 0)
          let p : PeerId := BitVec.ofNat 12 (wordBits e.words 1 43 32)
          let h := s.streamHmk r
          let again := s.belfry.resync.contains p
          completes (.bring r) s fun t => devicesKept s { t with dray := s.dray }
            ∧ (p = s.ownPeer → s.bellAllows h bell = true → ended s t r e 0 0 0 ∧ bellTakes s t bell (s.bell bell + v))
            ∧ (p = s.ownPeer → s.bellAllows h bell = false → ended s t r e 1 0 0 ∧ t.belfry = s.belfry)
            ∧ (p ≠ s.ownPeer → s.reachable p = false → ended s t r e 1 0 0 ∧ t.belfry = s.belfry)
            ∧ (p = s.ownPeer ∨ s.reachable p = false → t.dray = s.dray)
            ∧ (p ≠ s.ownPeer → s.reachable p = true →
                begunAs s t r e (fun y => { y with st := .begun, chime := some (p, s.nextSeq p) })
                  ∧ t.nextSeq p = s.nextSeq p + 1
                  ∧ t.belfry.sent = s.belfry.sent ++ [{ peer := p, seq := s.nextSeq p, resync := again, hmk := h, bell, v }]
                  ∧ packetsSent s t [(p, 4, .chime (s.nextSeq p) again h bell v, [])]))
      ∧ (begins s r (fun e => e.type == 2) e → e.launchCopy = false →
          let w := e.words.drop 1
          (∀ c, (s.pickCarter w).2 = some c → dWellFormed w (carterBench c).isSome false = true →
              dEndpoints c false w = true → dAligned w = true → completes (.copy r) s fun t =>
            begunAs s t r e (fun y => { y with st := .begun })
              ∧ (t.carter c).fore = (s.carter c).fore ++ [{ id := (s.carter c).serial + 1, src := .copy r e.n, words := w, hmk := s.streamHmk r }]
              ∧ t.benches = s.benches ∧ t.mem = s.mem)
          ∧ ((s.pickCarter w).2 = none → completes (.copy r) s fun t => ended s t r e 6 12 0 ∧ t.carters = s.carters)))
  ∧ (∀ (r : RingId) (c : CRec) (rest : List CRec) (s : State), clockOn s → (s.ring r).recs = c :: rest → (s.ring r).mute = false →
      let m := s.reg ⟨.cthRingCqtail, r.val, 0⟩
      let log := max 4 (s.fld .cthRingCqcfg r.val 19 16)
      let a := s.base52 .cthRingCqLo .cthRingCqHi r.val 8 + 32 * (m.toNat % 2 ^ log)
      ((m - (s.ring r).cqHead).toNat = 2 ^ log → completes (.completionRecordWrite r) s fun t => t = s)
      ∧ ((m - (s.ring r).cqHead).toNat ≠ 2 ^ log → s.linkUp (s.linkOf (s.ringFn r)) = true →
        completes (.completionRecordWrite r) s fun t =>
          stored s.mem.host t.mem.host a (recordBytes [c.w0 ||| phaseBit m log, c.w1, c.w2, c.w3])
            ∧ t.reg ⟨.cthRingCqtail, r.val, 0⟩ = m + 1 ∧ (t.ring r).recs = rest
            ∧ (∀ e ∈ (t.ring r).entries, e.n ≠ c.n)
            ∧ (c.irq = true → (s.fld .cthRingCqcfg r.val 10 0, .ring r) ∈ (t.fn (s.ringFn r)).due)
            ∧ (c.irq = false → t.fns = s.fns) ∧ t.benches = s.benches))
  ∧ (∀ (f : FnId) (vec : BitVec 11) (s : State), clockOn s → vec.toNat < s.tableSize f.val →
      let x := s.fn f.val
      let e := Sp.get (fun _ => ({} : MsixEntry)) x.msix vec.toNat
      (∀ d, x.due.find? (fun d => d.1 = vec.toNat) = some d → completes (.msixSend f vec) s fun t =>
          d ∉ (t.fn f.val).due
            ∧ (e.masked = false → x.msixEnable = true → s.linkUp (s.linkOf f.val) = true →
                t.out = s.out ++ [.msix f vec.toNat e.addr e.data])
            ∧ (e.masked = true ∨ x.msixEnable = false → vec.toNat ∈ (t.fn f.val).pba ∧ t.out = s.out))
      ∧ completes (.msixUnmask f vec) s fun t =>
          (Sp.get (fun _ => ({} : MsixEntry)) (t.fn f.val).msix vec.toNat).masked = false
            ∧ (vec.toNat ∈ x.pba → x.msixEnable = true → s.linkUp (s.linkOf f.val) = true →
                vec.toNat ∉ (t.fn f.val).pba ∧ t.out = s.out ++ [.msix f vec.toNat e.addr e.data])
            ∧ (vec.toNat ∉ x.pba ∨ x.msixEnable = false → t.out = s.out))
  ∧ (∀ (r : RingId) (s : State), clockOn s →
      completes (.ringResume r) s (fun t => t.ringHalted r = false ∧ devicesKept s t
          ∧ ∀ n, (s.ring r).slot = some n → t.slotState n ≠ 6)
      ∧ (∀ n, s.slotRing n = some r → completes (.slotResume n) s fun t => t.ringHalted r = false ∧ t.slotState n ≠ 6)
      ∧ (s.fld .cthRingCfg r.val 31 31 = 1 → s.fld .cthRingCfg r.val 30 30 = 0 → ((s.ring r).entries.map (·.n)).Nodup →
          completes (.ringDisable { ring := r }) s fun t => t.fld .cthRingCfg r.val 31 30 = 1
            ∧ (∀ e ∈ (t.ring r).entries, e.st ≠ .fetched)
            ∧ (t.ring r).recs = (s.ring r).recs ++
                ((s.ring r).entries.filter fun e => e.st == .fetched).map (fun e => completionRec e 7 0 0 0)
            ∧ devicesKept s t))

/-- A launch that no rule refuses waits for its benches, and one that R357 refuses ends with REFUSED; the benches of the launch served
first are the lowest-numbered free ones of its MASK, all at once (11 R358); the release writes table 11.6 into each bench, the bench
store reads 0, and the kernel runs once its prerequisites have completed (R359); groups of eight then begin (01 R32).
Holds, bindings and the wake order are the readings of logs 69 to 72 (DEDUCED). -/
def Obligations.KernelReleases : Prop :=
  (∀ (r : RingId) (n : SlotId) (e : SEntry) (s : State), begins s r (fun e => e.type == 1) e → (s.ring r).slot = some n →
      (s.kernel n).phase = .none → (∀ x ∈ (s.ring r).entries, x.preFailed = false) → wordBits e.words 2 55 52 = 0 →
      (s.launchRefused r e = false → completes (.launch r) s fun t =>
        begunAs s t r e (fun y => { y with st := .begun })
          ∧ t.kernel n = { phase := .waiting, ring := r, n := e.n, words := e.words } ∧ t.launchq = s.launchq ++ [n]
          ∧ (∀ m, m ≠ n → t.kernel m = s.kernel m) ∧ t.benches = s.benches ∧ t.regs = s.regs)
      ∧ (s.launchRefused r e = true → completes (.launch r) s fun t =>
        ended s t r e 1 0 0 ∧ t.kernels = s.kernels ∧ t.launchq = s.launchq ∧ t.benches = s.benches))
  ∧ (∀ (n : SlotId) (l : SEntry) (s : State), clockOn s →
      let k := s.kernel n
      k.phase = .waiting → s.entry k.ring k.n = some l → l.preFailed = false → s.preempted = [] → s.served.head? = some n →
      let bs := ((lMask k.words).filter s.benchFree).take (wordBits k.words 2 48 40)
      (bs.length = wordBits k.words 2 48 40 → completes (.benchAssign n) s fun t =>
        t.kernel n = { k with phase := .assigned, benches := bs } ∧ n ∉ t.launchq
          ∧ (∀ b, (t.bench b).slot = if b ∈ bs then some n else (s.bench b).slot)
          ∧ (∀ b, (t.bench b).core = (s.bench b).core ∧ (t.bench b).store = (s.bench b).store)
          ∧ (∀ c ∈ lCarters k.words, (t.carter c).slot = some n) ∧ (∀ h ∈ lQuarters k.words, (t.quarter h).slot = some n)
          ∧ t.fld .pwrStat 0 31 30 = 0 ∧ t.mem = s.mem)
      ∧ (bs.length ≠ wordBits k.words 2 48 40 → completes (.benchAssign n) s fun t => t = s))
  ∧ (∀ (n : SlotId) (s : State), clockOn s →
      let k := s.kernel n
      let w := k.words
      k.phase = .assigned → k.written = [] → lEngines w = false → k.benches.Nodup → s.preDone k = true →
      completes (.benchRelease n) s fun t =>
        (t.kernel n).phase = .running ∧ (t.kernel n).benches = k.benches ∧ (t.kernel n).woken = k.woken ∧ t.slotState n = 2
          ∧ bellTakes s t (BitVec.ofNat 16 (wordBits w 1 63 48)) 0
          ∧ (∀ i b, k.benches[i]? = some b →
              let c := (t.bench b).core
              (∀ q : R5, c.rd q = launchReg w i q.toNat)
                ∧ c.pc = BitVec.ofNat 16 (wordBits w 2 31 16) ∧ c.pl = BitVec.ofNat 2 (wordBits w 2 5 4)
                ∧ c.ien = BitVec.ofNat 4 (wordBits w 2 3 1 * 2) ∧ c.loops = [] ∧ c.running = false
                ∧ (∀ a, (t.bench b).store.byte a = 0) ∧ (t.bench b).lathe = {} ∧ (t.bench b).dcache = []
                ∧ (t.bench b).forge.tiles = [] ∧ (t.bench b).forge.residues = []
                ∧ c.cycle = (s.bench b).core.cycle ∧ c.xkey = (s.bench b).core.xkey
                ∧ t.fld .benXjBase b.val 15 0 = wordBits w 3 15 0)
          ∧ ∀ b, b ∉ k.benches → t.bench b = s.bench b)
  ∧ (∀ (n : SlotId) (s : State), clockOn s →
      let k := s.kernel n
      let l := (k.benches.filter fun b => !k.woken.contains b).take 8
      k.phase = .running → k.owed = [] → k.benches.Nodup →
      (∀ b ∈ l, (s.bench b).slot = some n ∧ s.fld .benDbgCtl b.val 0 0 = 0) →
      completes (.groupWake n) s fun t => t.kernel n = { k with woken := k.woken ++ l }
        ∧ (∀ b, (t.bench b).core.running = if b ∈ l then true else (s.bench b).core.running)
        ∧ (∀ b, (t.bench b).core.pc = (s.bench b).core.pc ∧ regsKept (s.bench b).core (t.bench b).core
            ∧ (t.bench b).store = (s.bench b).store)
        ∧ t.regs = s.regs ∧ t.mem = s.mem)

/-- A kernel whose completion bell meets its target ends with OK once its benches have come to rest, and they are free (11 R360, R366);
its time limit and an abort end it at once (R361); a notice reaches its running benches (R371); preemption hands its benches over, writes
their images and restores them (R367-R370); a shift boundary latches every counter (R372); a bench is disabled, reset and tested (17
R504-R507). A drain in progress resumes at its lowest failing row (10 R535), and a restored bench fetches its first instruction anew (02 R53).
The layout of a state image beyond table 11.8, and where in it the progress record stands, is the model's (DESIGN CHOICE, log 76). -/
def Obligations.KernelEnds : Prop :=
  (∀ (n : SlotId) (l : SEntry) (s : State), clockOn s →
      let k := s.kernel n
      k.phase = .running → met (s.bell (BitVec.ofNat 16 (wordBits k.words 1 63 48))) (BitVec.ofNat 32 (wordBits k.words 1 31 0)) = true →
      lEngines k.words = false → s.entry k.ring k.n = some l → l.type = 1 → wordBits l.words 2 55 52 = 0 →
      k.benches.Nodup → (∀ b ∈ k.benches, benchDone s n b) → completes (.kernelEnd n) s fun t =>
        t.kernel n = {} ∧ (∀ b ∈ k.benches, (t.bench b).slot = none ∧ (t.bench b).core.running = false)
          ∧ (∀ b, b ∉ k.benches → t.bench b = s.bench b) ∧ (∀ b, (t.bench b).store = (s.bench b).store)
          ∧ ended s t k.ring l k.status k.code.toNat 0 ∧ t.fld .fmnSlotStat n.val 27 24 = k.status.toNat % 16)
  ∧ (∀ (n : SlotId) (s : State), clockOn s →
      let k := s.kernel n
      let killed (t : State) (status : Byte) : Prop :=
        t.kernel n = { k with phase := .ending true, status := if k.status = 5 then 5 else status, code := 0 }
          ∧ t.slotState n = 3
          ∧ (∀ b, (t.bench b).core.stopping = true ↔ (b ∈ k.benches ∧ (s.bench b).slot = some n) ∨ (s.bench b).core.stopping = true)
          ∧ (∀ b, (t.bench b).store = (s.bench b).store) ∧ t.mem = s.mem ∧ t.rings = s.rings
      (k.phase = .running → wordBits k.words 2 15 8 ≠ 0 → k.woken ≠ [] → completes (.klimLapse n) s fun t => killed t 4)
      ∧ (k.phase ≠ .none → k.phase ≠ .ending true → completes (.slotAbort n) s fun t => killed t 3 ∧ n ∉ t.launchq)
      ∧ (k.phase = .running → k.benches.Nodup → (∀ b ∈ k.benches, (s.bench b).slot = some n) → completes (.slotNotice n) s fun t =>
          (∀ b ∈ k.benches, (s.bench b).core.running = true → (t.bench b).core.pendNotice = true
            ∧ (t.bench b).readStore (wordBits k.words 3 52 32) 8 = leBytes 8 (s.reg ⟨.fmnSlotNotice, n.val, 0⟩).toNat)
          ∧ (t.kernel n).owed = (k.benches.filter fun b => !(s.bench b).core.running)
          ∧ (∀ b, b ∉ k.benches → t.bench b = s.bench b) ∧ t.regs = s.regs)
      ∧ (k.phase = .running ∨ k.phase = .resuming → s.slotImage n ≠ 0 → lEngines k.words = false → k.benches.Nodup →
          (∀ b ∈ k.benches, (s.bench b).slot = some n) → completes (.slotPreempt n) s fun t =>
          (t.kernel n).phase = .preempting ∧ t.slotState n = 4
            ∧ (∀ b ∈ k.benches, if (s.bench b).core.running = true then (t.bench b).core.pendPreempt = true
                else (t.bench b).handed = true)
            ∧ ∀ b, (t.bench b).store = (s.bench b).store ∧ (t.bench b).core.pc = (s.bench b).core.pc))
  ∧ (∀ (n m : SlotId) (s : State), clockOn s → s.fld .fmnCfg 0 31 31 = 1 →
      (s.served.filter fun n => decide ((s.benchesHeld n).length < wordBits (s.kernel n).words 2 48 40)).head? = some n →
      let able (x : SlotId) : Prop := ((s.kernel x).phase = .running ∨ (s.kernel x).phase = .resuming) ∧ lPri (s.kernel x).words < lPri (s.kernel n).words
        ∧ s.slotImage x ≠ 0 ∧ ∃ b ∈ (s.kernel x).benches, b ∈ lMask (s.kernel n).words
      able m → (∀ x, able x → x ≠ m → lPri (s.kernel m).words < lPri (s.kernel x).words
          ∨ lPri (s.kernel m).words = lPri (s.kernel x).words ∧ (s.kernel x).order < (s.kernel m).order) →
      completes .autoPreempt s fun t => (t.kernel m).phase = .preempting ∧ t.slotState m = 4 ∧ t.mem = s.mem)
  ∧ (∀ (b : BenchId) (n : SlotId) (s : State), clockOn s → (s.bench b).slot = some n → (s.kernel n).phase = .preempting →
      (s.aclock b = true → (s.bench b).core.running = true → (s.bench b).core.halted = false → (s.bench b).core.pl = 2 →
        (s.bench b).core.pendPreempt = false → (s.bench b).core.stall = none → completes (.benchHandover b) s fun t =>
          (t.bench b).handed = true ∧ (t.bench b).core = { (s.bench b).core with running := false }
            ∧ (t.bench b).store = (s.bench b).store ∧ (t.bench b).lathe = { (s.bench b).lathe with wait := none }
            ∧ (t.bench b).forge.tiles = (s.bench b).forge.tiles ∧ (t.bench b).forge.residues = (s.bench b).forge.residues
            ∧ (t.bench b).forge.array = (s.bench b).forge.array
            ∧ (t.bench b).forge.ladle = (s.bench b).forge.ladle.map (fun o => { o with wait := none })
            ∧ (t.bench b).forge.arrayNext = none ∧ (t.bench b).forge.loaderNext = none ∧ (t.bench b).forge.ladleNext = none
            ∧ (∀ c ∈ benchCarters b, t.carterFld c 2 31 31 = 0)
            ∧ ∀ c ∈ benchCarters b, s.carterFld c 2 31 31 = 1 → c ∈ (t.kernel n).rings)
      ∧ (s.fld .benXstat b.val 31 31 = 0 → s.handedStill b = true → (s.bench b).store.wf = true →
        let k := s.kernel n
        let rank := (k.benches.takeWhile (· != b)).length
        let a := s.slotImage n + 0x400000 * rank
        let u := ladleSettle b s
        let size := (u.bench b).imageSize
        (∀ i, i < size → (s.route (a + i)).isSome = true) → (∀ p ∈ (u.bench b).image u.draws (u.progressRecord b), p.1 < size) →
        s.mem.dram.wf = true →
          completes (.stateImageWrite b) s fun t =>
          (∀ i, i < 0x200000 → t.mem.dram.byte (a + i) = (s.bench b).store.byte i)
            ∧ (∀ i, i < size → t.mem.dram.byte (a + i) = Memory.byte ((u.bench b).image u.draws (u.progressRecord b)) i)
            ∧ (∀ i, (i < a ∨ a + size ≤ i) → t.mem.dram.byte i = s.mem.dram.byte i)
            ∧ (t.bench b).slot = none ∧ (t.bench b).forge.queue = [] ∧ (t.bench b).forge.array = none ∧ (t.bench b).forge.ladle = none
            ∧ (k.status ≠ 5 → (∀ x ∈ k.benches, x = b ∨ x ∈ k.free) →
                (t.kernel n).phase = .preempted ∧ t.slotState n = 5
                  ∧ Sp.get (fun _ => ({} : Bench)) (t.kernel n).images rank = u.bench b
                  ∧ ∀ o d i c, (s.bench b).forge.handing = some (o, d) → (s.bench b).forge.ladleHeld = false → s.settled (.ladle b) = true →
                      s.forgeRuns b = false → o.failed = some (i, c) → (u.bench b).forge.ladle = some { o with rows := i, failed := none })))
  ∧ (∀ (n : SlotId) (s : State), clockOn s → s.mayResume n = true → (s.kernel n).benches.Nodup →
      completes (.stateImageRestore n) s fun t =>
        let k := s.kernel n
        (t.kernel n).phase = .resuming ∧ (t.kernel n).woken = [] ∧ t.slotState n = 2
          ∧ (∀ i b, k.benches[i]? = some b →
              let x := Sp.get (fun _ => ({} : Bench)) k.images i
              (t.bench b).slot = some n ∧ (t.bench b).core.running = false ∧ (t.bench b).core.pc = x.core.pc
                ∧ regsKept x.core (t.bench b).core ∧ (t.bench b).forge.residues = residuesOf (t.bench b).forge.tiles
                ∧ (t.bench b).core.fetchDue = true ∧ (t.bench b).core.lookahead = []
                ∧ ∀ j, j < 0x200000 → (t.bench b).store.byte j = s.mem.dram.byte (s.slotImage n + i * 0x400000 + j))
          ∧ t.mem = s.mem)
  ∧ (∀ (s : State), clockOn s →
      (s.fld .fmnShiftCfg 0 31 30 = 1 → completes .shiftBoundary s fun t => shiftLatched s t)
      ∧ (s.fld .fmnShiftCfg 0 31 30 = 2 → s.ready = true → completes (.shiftDoorbell 0) s fun t => shiftLatched s t))
  ∧ ∀ (b : BenchId) (u : SelfTest) (s : State), clockOn s →
      (s.fld .fmnBenchCtl b.val 28 28 = 1 → s.fld .fmnBenchCtl b.val 30 30 = 0 → completes (.benchDisable b) s fun t =>
        t.fld .fmnBenchCtl b.val 31 28 = (if (s.bench b).slot.isSome then 4 else 0) ∧ t.benches = s.benches ∧ b ∉ t.seizing)
      ∧ (s.fld .fmnBenchCtl b.val 28 28 = 0 → s.fld .fmnBenchCtl b.val 30 30 = 0 → s.fld .fmnBreset 0 30 30 = 0 →
        completes (.benchReset b) s fun t => benchFresh s t b ∧ t.resetting = some b ∧ t.fld .fmnBreset 0 30 30 = 1
          ∧ t.reg ⟨.benPguard, b.val, 0⟩ = (⟨.benPguard, b.val, 0⟩ : Reg).reset)
      ∧ (s.resetting = some u.bench → u.rows = [] → noEntries s u.bench → completes (.benchResetComplete u) s fun t =>
        t.fld .fmnBreset 0 30 30 = 0 ∧ t.fld .fmnBreset 0 28 28 = 1 ∧ t.resetting = none
          ∧ t.fld .fmnBreset 0 27 27 = (if u.unit_ = none then 1 else 0)
          ∧ (u.unit_ ≠ none → (t.bench u.bench).excluded = true ∧ t.fld .fmnBenchCtl u.bench.val 31 28 = 0))
      ∧ (s.fld .benXstat u.bench.val 31 31 = 1 → u.rows = [] → u.unit_ = none → noEntries s u.bench →
        completes (.seizureReset u) s fun t => benchFresh s t u.bench ∧ u.bench ∉ t.seizing
          ∧ t.fld .benXstat u.bench.val 31 31 = 0
          ∧ t.fld .fmnBenchCtl u.bench.val 31 28 =
              (if u.bench ∈ s.seizing then 9 else s.fld .fmnBenchCtl u.bench.val 31 28))

/-! ## The host port (12) -/

/-- Links train, recover, go down and come up, and what waited leaves in order (12 R373, R393, R394); resets of links and functions (R395,
R396; KEEP = 1 keeps all but configuration state); host requests through BAR4 (R381), which a stack in self-refresh holds back (13 R414);
completions by tag and their time limit (R392), with the requester ID and PASID of the request (09 R284); a configuration request writes or
reads its register (R377); a disabled function drains (16 R479).
PCI Express configuration and link fields rest on logs 8 (PRESUMED), 42, 81, 82 and 83 (DEDUCED). -/
def Obligations.HostPort : Prop :=
  (∀ (k : LinkId) (gen : BitVec 3) (width : BitVec 5) (flit : Bool) (s : State), portOn s → s.linkMode k gen width = true →
      (s.linkUp k = false → s.mayTrain k = true → completes (.linkTraining k gen width flit) s fun t =>
          t.fld .pexLinkStat k.val 29 27 = gen.toNat ∧ t.fld .pexLinkStat k.val 26 22 = width.toNat
            ∧ t.fld .pexLinkStat k.val 30 30 = (if flit = true ∨ 6 ≤ gen.toNat then 1 else 0) ∧ t.linkUp k = false
            ∧ { t with regs := s.regs } = s)
      ∧ (s.linkUp k = true → (6 ≤ gen.toNat → s.fld .pexLinkStat k.val 30 30 ≠ 0) → completes (.linkRecovery k gen width) s fun t =>
          t.fld .pexLinkStat k.val 29 27 = gen.toNat ∧ t.fld .pexLinkStat k.val 26 22 = width.toNat
            ∧ t.fld .pexLinkStat k.val 15 0 = min (s.fld .pexLinkStat k.val 15 0 + 1) 65535 ∧ t.linkUp k = true
            ∧ { t with regs := s.regs } = s))
  ∧ (∀ (k : LinkId) (s : State), portOn s →
      let l := Sp.get (fun _ => []) s.portq k.val
      let r (event : BitVec 16) : ErrRec := { src := 6, event, unit_ := BitVec.ofNat 16 k.val }
      (s.linkUp k = true → completes (.linkDown k) s fun t => t.linkUp k = false ∧ t.portq = s.portq ∧ t.mem = s.mem
          ∧ t.benches = s.benches ∧ (s.ready = true → reported s t (r 1)))
      ∧ (s.linkUp k = false → s.fld .pexLinkStat k.val 29 27 ≠ 0 → completes (.linkUp k) s fun t => ∃ u : State,
          u.linkUp k = true ∧ Sp.find u.portq k.val = none ∧ u.mem.host = afterHeld s.mem.host l ∧ u.benches = s.benches
            ∧ (s.ready = true → reported s u (r 2))
            ∧ t = (portEngines l).foldl (fun s e => engineGo e s) u
            ∧ ((∀ e fn q a d, .write (some e) fn q a d ∉ l) → t = u))
      ∧ (s.fld .pexLinkCfg 0 31 31 = 1 →
          (completes (.hotReset k) s fun t => { t with fns := s.fns } = s
            ∧ ∀ f, t.fn f.val = if f ∈ s.linkFns k then { due := (s.fn f.val).due } else s.fn f.val)
          ∧ (completes (.perLinkReset k) s fun t => { t with fns := s.fns } = s
            ∧ ∀ f, t.fn f.val = if k.val ≠ 0 ∧ f ∈ s.linkFns k then { due := (s.fn f.val).due } else s.fn f.val)
          ∧ (s.linkUp k = false → (∀ f ∈ s.xlat.flights, f.way.target.fn? = none) → (∀ e fn q a d, .write (some e) fn q a d ∉ l) →
            completes (.holdTimeout k) s fun t => Sp.find t.portq k.val = none ∧ t.mem = s.mem ∧ t.benches = s.benches
              ∧ ∀ f ∈ s.linkFns k, t.fn f.val = { due := (s.fn f.val).due })))
  ∧ (∀ (f : FnId) (s : State), portOn s → s.linkFirst (s.linkOf f.val) ≠ some f → completes (.functionLevelReset f) s fun t =>
      let x := t.fn f.val
      x.msixEnable = false ∧ x.msix = [] ∧ x.pba = [] ∧ x.due = [] ∧ x.busMaster = (s.fn f.val).busMaster
        ∧ t.fld .xltFringCfg f.val 31 31 = 0 ∧ t.fld .pexEringCfg f.val 31 31 = 0
        ∧ Sp.find t.errq f.val = none ∧ Sp.find t.xlat.fltq f.val = none
        ∧ (∀ r ∈ s.fnRings f, t.fld .cthRingCfg r.val 31 31 = 0 ∧ (t.ring r).mute = true)
        ∧ ∀ n ∈ s.fnSlots f, (s.kernel n).phase ≠ .none → (t.kernel n).phase = .ending true)
  ∧ (∀ (k : LinkId) (off len : Nat) (w : Fin 64) (s : State), barUnit s k off len w →
      let a := s.awinDpa w off
      (∀ c, dramOk s (s.awinReq w) a len false = true → s.rangeSleeps a len = some c → s.chanFull c = false →
          completes (.bar4Read k off len) s fun t => t = s.holdAt c (.out (.barData k (s.mem.dram.bytes id a len) false)))
      ∧ (dramOk s (s.awinReq w) a len false = true → s.rangeSleeps a len = none → completes (.bar4Read k off len) s fun t =>
          t.out = s.out ++ [.barData k (s.mem.dram.bytes id a len) false] ∧ { t with out := s.out } = s)
      ∧ (∀ d, d.length = len → s.fld .pexAwinCfg w.val 30 30 = 1 → dramOk s (s.awinReq w) a len true = true →
          s.rangeSleeps a len = none → completes (.bar4Write k off d false) s fun t => stored s.mem.dram t.mem.dram a d ∧ t.benches = s.benches
            ∧ t.regs = s.regs ∧ t.errq = s.errq)
      ∧ (∀ d, completes (.bar4Write k off d true) s fun t => t.mem = s.mem
          ∧ reported s t { src := 6, event := 4, w2 := BitVec.ofNat 64 off }))
  ∧ (∀ (k : LinkId) (off len : Nat) (s : State), portOn s → s.linkUp k = true →
      (s.ready = true → s.rootOn = true → s.awin k off = none → completes (.bar4Read k off len) s fun t =>
          t.out = s.out ++ [.unsupported k] ∧ t.mem = s.mem ∧ reported s t { src := 6, event := 3, w2 := BitVec.ofNat 64 off })
      ∧ (off < 2 ^ 39 → completes (.bar4Atomicop k off) s fun t =>
          t.out = s.rouse.out ++ [.unsupported k] ∧ { t with out := s.rouse.out } = s.rouse)
      ∧ completes .lgo s fun t => t.fld .pexFmap 0 31 31 = 1 ∧ { t with regs := s.regs } = s)
  ∧ (∀ (b : BenchId) (acc : Access) (p : Piece) (tag : Nat) (n : BitVec 6) (q : Option (BitVec 20)) (a : Nat) (rd : R5) (sx : Bool)
      (s : State), hostRead s b acc p tag n q a rd sx →
      let c := (s.bench b).core
      let l := s.delegLevel b 0x04 c.pl
      (∀ host, completes (.hostCompletion tag .ok host) s fun t => fellThrough s t b 1
          ∧ (t.bench b).core.flags = c.flags ∧ t.mem.host = s.mem.host.setCells host
          ∧ writes c (t.bench b).core rd (extendLoad acc.size sx (leVal ((s.mem.host.setCells host).bytes (hostKey q) a p.len))))
      ∧ (roomFor s b l = true → completes (.completionTimeout tag) s fun t => entered s t b l 0x04 4 c.pc p.dva 0))
  ∧ (∀ (f : FnId) (w : ConfigWrite) (s : State), portOn s → s.fnVisible f = true →
      (w = .vfEnable true → s.fnPhysical f = true) → w ≠ .vfEnable false → w ≠ .msixEnable true → (∀ x, w ≠ .read x) →
      (∀ n, w = .barSize n → s.fnPhysical f = true ∧ 10 ≤ n.toNat ∧ n.toNat ≤ 19) →
      completes (.configurationRequest f w) s fun t => { t with fns := s.fns } = s
        ∧ (∀ g : FnId, g ≠ f → t.fn g.val = s.fn g.val)
        ∧ t.fn f.val =
            let x := s.fn f.val
            match w with
            | .read _ => x
            | .busMaster v => { x with busMaster := v }
            | .msixEnable v => { x with msixEnable := v }
            | .vfEnable v => { x with vfEnable := v }
            | .atomicRequester v => { x with atomicRequester := v }
            | .completionTimeout r => { x with completionTimeout := r }
            | .barSize n => { x with barSize := n }
            | .other off v => { x with config := Sp.put x.config off.toNat v })
  ∧ (∀ (f : FnId) (s : State), portOn s → s.fnVisible f = true →
      let x := s.fn f.val
      let e (v : Nat) : MsixEntry := Sp.get (fun _ => ({} : MsixEntry)) x.msix v
      completes (.configurationRequest f (.msixEnable true)) s (fun t => (t.fn f.val).msixEnable = true
          ∧ (t.fn f.val).pba = x.pba.filter (fun v => (e v).masked)
          ∧ t.out = s.out ++ (x.pba.filter fun v => !(e v).masked).map (fun v => .msix f v (e v).addr (e v).data)
          ∧ t.mem = s.mem ∧ t.regs = s.regs)
      ∧ (x.vfEnable = true → s.fnPhysical f = true → completes (.configurationRequest f (.vfEnable false)) s fun t =>
          (t.fn f.val).vfEnable = false
            ∧ ∀ g ∈ s.linkVfs (s.linkOf f.val), (t.fn g.val).msixEnable = false ∧ (t.fn g.val).msix = []
                ∧ ∀ r ∈ s.fnRings g, t.fld .cthRingCfg r.val 31 31 = 0)
      ∧ (x.vfEnable = false ∨ s.fnPhysical f = false → completes (.configurationRequest f (.vfEnable false)) s fun t => t = s)
      ∧ (∀ y, completes (.configurationRequest f (.read y)) s fun t =>
          t.out = s.out ++ [.config f y (s.configRead f y)] ∧ { t with out := s.out } = s)
      ∧ ∀ y ∈ [(ConfigField.vendorId, 0x1F4D), (.deviceId, if s.fnPhysical f then 0x0256 else 0x0257), (.classCode, 0x120000),
            (.revisionId, 0x11), (.maxPayload, 512), (.maxReadRequest, 4096), (.tableSize, s.tableSize f.val)],
          completes (.configurationRequest f (.read y.1)) s fun t => t.out = s.out ++ [.config f y.1 y.2])
  ∧ (∀ (f : FnId) (w : ConfigWrite) (s : State), portOn s → s.fnVisible f = false → completes (.configurationRequest f w) s fun t =>
      if s.linkUp (s.linkOf f.val) = true then t.out = s.out ++ [.unsupported (s.linkOf f.val)] ∧ { t with out := s.out } = s else t = s)
  ∧ ∀ (f : FnId) (s : State), clockOn s → f.val ≠ 0 → s.fld .pexFnCtl f.val 30 30 = 0 → s.fld .pexFnCtl f.val 28 28 = 1 →
      completes (.functionDisable f) s fun t => t.fld .pexFnCtl f.val 31 31 = 0 ∧ t.fld .pexFnCtl f.val 30 30 = 1
        ∧ t.fld .pexFnCtl f.val 28 28 = 0 ∧ (∀ r ∈ s.fnRings f, t.fld .cthRingCfg r.val 31 31 = 0)
        ∧ t.benches = s.benches ∧ t.kernels = s.kernels

/-! ## Dray links and the alloy engine (14) -/

/-- Flits are accepted in sequence order alone, and a bad one asks for a replay (14 R428); lanes are dropped in pairs, and a link trains again
as it stood (R431); a port comes up, or is fenced (R432), and drains (R433); packets are passed on by their path, their LAYER raised by the
DL bit of the hop that brought them (R434, R435), or dropped with LINK (R436); credits are granted at link-up and return as buffers drain
(R430); routes change when nothing is in flight to the peer (R437, R438).
The receive buffers' sizes, and the place of the DL bits in a packet, are the model's (DESIGN CHOICE, logs 94, 156). -/
def Obligations.DrayLinks : Prop :=
  (∀ (p : PortId) (x : Flit) (s : State), clockOn s → s.portRuns p.val = true →
      let y := s.port p.val
      let kept := y.replay.filter fun f => decide (2048 ≤ (x.ack - f.seq).toNat)
      let rmax := s.fld .dryPortCfg p.val 27 24
      let again (ack : BitVec 12) (l : List Flit) : List Out :=
        (l.take 1).map (fun f => .flit p { f with ack, nak := y.nak }) ++ (l.drop 1).map fun f => .flit p { f with ack, nak := false }
      (x.good = true → x.seq = y.last + 1 → y.queue = [] → y.rest = 0 → (∀ k ∈ x.payload, k.type.toNat < 10) →
        (x.nak = true → y.idle + 1 < rmax) → completes (.flitReceive p x) s fun t =>
          portOnly s t p ∧ (t.port p.val).last = x.seq ∧ (t.port p.val).gap = false ∧ (t.port p.val).rx = y.rx ++ x.payload
            ∧ (x.idle = true → (t.port p.val).replay = kept ∧ t.out = s.out ++ if x.nak = true then again x.seq kept else [])
            ∧ (x.idle = false → x.nak = false →
                let f : Flit := { seq := y.seq, ack := x.seq, nak := y.nak, idle := true }
                if kept.length < 256 then (t.port p.val).replay = kept ++ [f] ∧ t.out = s.out ++ [.flit p f]
                else (t.port p.val).replay = kept ∧ t.out = s.out))
      ∧ (x.good = true → x.seq ≠ y.last + 1 → completes (.flitReceive p x) s fun t => t = s)
      ∧ (x.good = false → y.gap = true → completes (.flitReceive p x) s fun t => t = s)
      ∧ (x.good = false → y.gap = false → completes (.flitReceive p x) s fun t => portOnly s t p
          ∧ (t.port p.val).last = y.last ∧ (t.port p.val).gap = true ∧ (t.port p.val).rx = y.rx
          ∧ (if y.replay.length < 256 then (t.port p.val).seq = y.seq + 1
              ∧ t.out = s.out ++ [.flit p { seq := y.seq, ack := y.last, nak := true, idle := true }]
             else (t.port p.val).nak = true ∧ t.out = s.out))
      ∧ (y.replay ≠ [] → completes (.replayTimeout p) s fun t => portOnly s t p ∧ (t.port p.val).replay = y.replay
          ∧ t.out = s.out ++ again y.last y.replay
          ∧ (if rmax ≤ y.idle + 1 then t.portState p.val = 1 ∧ (t.port p.val).retrain = true
                ∧ t.fld .dryPortStat p.val 7 0 = min (s.fld .dryPortStat p.val 7 0 + 1) 255
             else t.portState p.val = s.portState p.val))
      ∧ ∀ (cls : Fin 5) (layer : Fin 4) (units : Nat), y.queue = [] → y.rest = 0 → completes (.credit p cls layer units) s fun t =>
          { t with dray := s.dray } = s ∧ portOnly s t p
            ∧ (∀ k, Sp.get (fun _ => 0) (t.port p.val).credits k
                = Sp.get (fun _ => 0) y.credits k + if k = 4 * cls.val + layer.val then units else 0))
  ∧ (∀ (p : PortId) (lane : Fin 8) (corrected : Option Nat) (s : State), clockOn s → s.portState p.val ≠ 0 →
      lane.val / 2 ∉ (s.port p.val).pairs →
      let y := s.port p.val
      ((∀ n, corrected = some n → s.fld .dryPortCfg p.val 23 16 * 1024 < n) → completes (.laneDegrade p { lane, corrected }) s fun t =>
        let n := y.pairs.length + 1
        portOnly s t p
          ∧ (n ≤ 2 → t.port p.val = { y with pairs := lane.val / 2 :: y.pairs, retrain := y.retrain || s.portRuns p.val }
              ∧ t.fld .dryPortStat p.val 27 26 = n ∧ t.portState p.val = 1
              ∧ t.fld .dryPortStat p.val 7 0 = min (s.fld .dryPortStat p.val 7 0 + 1) 255)
          ∧ (2 < n → t.port p.val = {} ∧ t.portState p.val = 0))
      ∧ ∀ n, n ≤ s.fld .dryPortCfg p.val 23 16 * 1024 → completes (.laneDegrade p { lane, corrected := some n }) s fun t => t = s)
  ∧ (∀ (p : PortId) (dom : BitVec 16) (peer : PeerId) (port : BitVec 4) (s : State), clockOn s →
      s.fld .dryPortCfg p.val 31 31 = 1 → s.fld .dryPortStat p.val 31 31 = 0 →
      let y := s.port p.val
      let hail : Out := .hail p (BitVec.ofNat 16 (s.fld .dryId 0 31 16)) s.ownPeer
      (s.portRuns p.val = false → completes (.portLinkUp p dom peer port) s fun t => portOnly s t p
          ∧ t.portState p.val = (if dom.toNat = s.fld .dryId 0 31 16 then 2 else 3)
          ∧ t.fld .dryPortStat p.val 23 12 = peer.toNat ∧ t.fld .dryPortStat p.val 11 8 = port.toNat
          ∧ (∃ l, t.out = s.out ++ hail :: l)
          ∧ (y.queue = [] → y.rest = 0 → y.retrain = true → t.port p.val = { y with retrain := false } ∧ t.out = s.out ++ [hail])
          ∧ (y.queue = [] → y.retrain = false → (t.port p.val).last = 0xFFF ∧ (t.port p.val).rx = [] ∧
              ∀ c l : Fin 4, ∃ f, .flit p f ∈ t.out ∧ ∃ k ∈ f.payload,
                k.body = .credit ⟨c.val, by omega⟩ l (Config.bufferUnits c.val l.val) ∧ k.dst = peer))
      ∧ completes (.portDisable p) s fun t => portOnly s t p ∧ t.fld .dryPortCfg p.val 31 31 = 0
          ∧ (if s.portRuns p.val = true ∨ y.retrain = true then
                t.fld .dryPortStat p.val 31 31 = 1 ∧ t.portState p.val = s.portState p.val ∧ t.port p.val = y
             else t.portState p.val = 0 ∧ t.port p.val = {}))
  ∧ (∀ (k : Packet) (s : State), clockOn s →
      let u := s.unload (· == k)
      let n := if 6 ≤ k.hop.toNat then 15 else pathNibble k.path k.hop.toNat
      let moved : Packet := { k with hop := k.hop + 1, layer := k.layer + if k.hop ≠ 0 ∧ k.dl.getLsbD (k.hop.toNat - 1) = true then 1 else 0 }
      (∀ p : PortId, k ∈ (s.port p.val).rx → (∀ q : PortId, q.val < p.val → k ∉ (s.port q.val).rx) →
        let y := s.port p.val
        let back : Packet :=
          { type := 9, src := s.ownPeer, dst := BitVec.ofNat 12 (s.fld .dryPortStat p.val 23 12), path := 0xFFFFFF
            body := .credit ⟨packetClass k.type % 5, by omega⟩ ⟨k.layer.toNat, by omega⟩ (packetUnits k) }
        k.type.toNat < 8 → s.fld .dryPortStat p.val 31 31 = 0 → y.queue = [] → y.rest = 0 → s.flitRoom p.val = true →
          (u.port p.val).rx = y.rx.erase k ∧ portOnly s u p
            ∧ u.out = s.out ++ [.flit p { seq := y.seq, ack := y.last, nak := y.nak, payload := [back] }])
      ∧ (∀ o : PortId, n = o.val → k.type.toNat < 10 → s.portLive o.val = true → (u.port o.val).queue = [] → (u.port o.val).rest = 0 →
        u.flitRoom o.val = true → u.maySend o.val moved = true → completes (.packetForward k) s fun t =>
          let y := u.port o.val
          portOnly u t o ∧ (t.port o.val).queue = [] ∧ (t.port o.val).seq = y.seq + 1
            ∧ t.out = u.out ++ [.flit o { seq := y.seq, ack := y.last, nak := y.nak, payload := [moved] }])
      ∧ (∀ o : PortId, n = o.val → k.type.toNat < 10 → s.portLive o.val = true → (u.port o.val).queue = [] → (u.port o.val).rest = 0 →
        (u.flitRoom o.val = false ∨ u.maySend o.val moved = false) → completes (.packetForward k) s fun t =>
          portOnly u t o ∧ t.out = u.out ∧ (t.port o.val).queue = [moved])
      ∧ ((10 ≤ k.type.toNat ∨ (n < 12 ∧ s.portLive n = false) ∨ (12 ≤ n ∧ (n ≠ 15 ∨ k.dst ≠ s.ownPeer))) →
        completes (.packetForward k) s fun t => t.benches = s.benches ∧ t.mem = s.mem ∧ t.dray.drops = s.dray.drops + 1
          ∧ packetsSent u t (if k.type.toNat ≤ 2 then [(k.src, 3, .req { tag := k.tag, outcome := .link }, [])] else [])
          ∧ (s.ready = true → reported s t
              { src := 5, event := 5, unit_ := BitVec.ofNat 16 n, w2 := k.dst.setWidth 64, w3 := k.type.setWidth 64 }))
      ∧ (k.type.toNat < 10 → n = 15 → k.dst = s.ownPeer → completes (.packetForward k) s fun t => t = s))
  ∧ (∀ (p : PeerId) (s : State), clockOn s → s.dray.pendRt = [] →
      (∀ (alt : Bool) (v : W32), BitVec.ofNat 12 (s.fld .dryRtSel 0 11 0) = p →
        let m := v &&& maskOf (fun _ => true) (RegKind.fields .dryRtPri)
        (s.peerQuiet p = true → completes (.dryRtWrite alt v) s fun t => t.route_ alt p = m
            ∧ (∀ a q, (a ≠ alt ∨ q ≠ p) → t.route_ a q = s.route_ a q) ∧ t.fld .dryRtSel 0 31 31 = 0 ∧ t.dray.pendRt = [])
        ∧ (s.peerQuiet p = false → completes (.dryRtWrite alt v) s fun t => (∀ a q, t.route_ a q = s.route_ a q)
            ∧ t.fld .dryRtSel 0 31 31 = 1 ∧ t.dray.pendRt = [(p, alt, m)]))
      ∧ (∀ (o : PortId), pathNibble ((s.route_ false p).setWidth 24) 0 = o.val →
        (s.portLive o.val = false → p ∉ s.dray.onAlt → (s.route_ true p).getLsbD 31 = true → completes (.pathFailover p) s fun t =>
            (∀ a q, t.route_ a q = s.route_ a q)
              ∧ if s.peerQuiet p = true then t.dray.onAlt = p :: s.dray.onAlt ∧ p ∉ t.dray.change
                else t.dray.onAlt = s.dray.onAlt ∧ p ∈ t.dray.change)
        ∧ (s.portState o.val = 2 → s.portLive o.val = true → p ∈ s.dray.onAlt → completes (.pathFailover p) s fun t =>
            (∀ a q, t.route_ a q = s.route_ a q)
              ∧ if s.peerQuiet p = true then p ∉ t.dray.onAlt else t.dray.onAlt = s.dray.onAlt ∧ p ∈ t.dray.change)
        ∧ (s.portLive o.val = true → p ∉ s.dray.onAlt →
            completes (.pathFailover p) s (fun t => t.dray.onAlt = s.dray.onAlt ∧ p ∉ t.dray.change)
              ∧ completes (.routeChange p) s fun t => t.dray.onAlt = s.dray.onAlt ∧ (s.peerQuiet p = true → p ∉ t.dray.change))))
  ∧ (∀ (p : PeerId) (alt : Bool) (v : W32) (s : State), clockOn s → s.dray.pendRt = [(p, alt, v)] →
      (s.peerQuiet p = true → completes (.routeChange p) s fun t => t.route_ alt p = v ∧ t.dray.pendRt = []
          ∧ t.fld .dryRtSel 0 31 31 = 0 ∧ ∀ x, x ∈ t.dray.parked ↔ x ∈ s.dray.parked ∧ x.1.dst ≠ p)
      ∧ (s.peerQuiet p = false → completes (.routeChange p) s fun t => t = s))

/-- Requests of peers are checked and performed as those of this device, and answered by a RESPONSE to their sender with their tag (09 R285,
R306, R307; 14 R434), or held while a stack in self-refresh sleeps (13 R414); an acknowledgement settles the write with its tag (14 R429); a
read's response completes the load that waits for it (08 R255).
Which response answers what is the reading of log 42 (DEDUCED). -/
def Obligations.PeerTraffic : Prop :=
  (∀ (src : PeerId) (tag : Nat) (q : MemReq) (s : State), clockOn s → q.watched = false →
      let r : Requester := { hmk := q.hmk, smask := q.smask, peer := true }
      let u := s.unload fun k => decide (k.type.toNat ≤ 2) && k.src == src && k.tag == tag
      let ans (st : ExtStatus) : ReqUnit := { tag, dpa := q.dpa, len := q.len, hmk := q.hmk, smask := q.smask, outcome := st }
      let quiet (t : State) : Prop := t.benches = s.benches ∧ t.regs = s.regs ∧ t.errq = s.errq
      (q.op = .read → dramOk s r q.dpa q.len false = true →
        (s.sleeps q.dpa = none → completes (.peerRequest src tag q) s fun t =>
          quiet t ∧ t.mem = s.mem ∧ packetsSent u t [(src, 3, .req (ans .ok), s.mem.dram.bytes id q.dpa q.len)])
        ∧ (∀ c, s.sleeps q.dpa = some c → s.chanFull c = false → completes (.peerRequest src tag q) s fun t =>
          t = u.holdAt c (.peer src (ans .ok) (s.mem.dram.bytes id q.dpa q.len))))
      ∧ (∀ c, s.sleeps q.dpa = some c → s.chanFull c = true → completes (.peerRequest src tag q) s fun t => t = s)
      ∧ (∀ d, q.op = .write d → dramOk s r q.dpa d.length true = true → s.sleeps q.dpa = none →
        completes (.peerRequest src tag q) s fun t =>
          stored s.mem.dram t.mem.dram q.dpa d ∧ quiet t ∧ packetsSent u t [(src, 3, .req (ans .ok), [])])
      ∧ (q.dpa < windowBase → s.dramAllows r q.dpa (reqWrites q) = false → s.sleeps q.dpa = none →
          completes (.peerRequest src tag q) s fun t => t.mem.dram = s.mem.dram ∧ t.benches = s.benches
            ∧ packetsSent u t [(src, 3, .req (ans .denied), [])]))
  ∧ (∀ (f : Flight) (b : BenchId) (p : PeerId) (tag : Nat) (st : ExtStatus) (s : State), clockOn s →
      s.mem.acks.find? (·.toPeer p tag) = some f → f.who.eng = .core b → (∀ a ps, (s.bench b).core.stall ≠ some (.response a ps)) →
      let u := s.unload fun k => k.type == 3 && k.src == p && k.tag == tag
      completes (.peerResponse tag p st []) s fun t => t = { u with mem := { s.mem with acks := s.mem.acks.erase f } })
  ∧ (∀ (b : BenchId) (acc : Access) (x : Piece) (p : PeerId) (a tag : Nat) (rd : R5) (sx : Bool) (data : Cells) (s : State),
      loadWaits s b acc x tag rd sx → x.target = .peer p a → x.way.target = .peer p a → (∀ f ∈ s.mem.acks, f.tag ≠ tag) →
      completes (.peerResponse tag p .ok data) s fun t =>
        let c := (s.bench b).core
        let m := s.mem.peer.setCells (data.map fun c => (peerKey p c.1, c.2))
        fellThrough s t b 1 ∧ t.mem.peer = m ∧ (t.bench b).core.flags = c.flags
          ∧ writes c (t.bench b).core rd (extendLoad acc.size sx (leVal (m.bytes (peerKey p) a x.len))))

/-- A collective starts with its HELLO and its own blocks (14 R440, R441); the HELLO from PREV must match (R443); a partial block takes this
rank's values and goes on (R442); a mismatch, a time limit and DISTRESS end it, and a CID is held (R443, R444); a quarter drains (10
R341). -/
def Obligations.Collectives : Prop :=
  (∀ r ∈ ([(.allreduce, 0), (.reducescatter, 1), (.allgather, 2), (.broadcast, 3), (.reduce, 4)] : List ((HallId → Instr) × Nat)),
      ∀ (q : HallId) (s s1 s3 : State) (d e : List Byte), quarterWakes s q →
      let s0 := s.updQuarter q fun x => { x with seen := s.bell (BitVec.ofNat 16 (s.fld .alyQRingCfg q.val 15 0)), reread := false }
      let cb := wordsOf 4 d
      let s2 := s1.updQuarter q fun x => { x with err := false, word3 := cb.getD 3 0 }
      let head : W32 := (cb.getD 1 0).setWidth 32
      let w := wordsOf 16 e
      s0.quarterRead q 0 128 = (s1, .ok d) → wordBits cb 2 63 63 = 0 → head ≠ (cb.getD 0 0).setWidth 32 →
      s2.quarterRead q (128 * (1 + head.toNat % 2 ^ ringLog (s2.fld .alyQRingCfg q.val 19 16))) 128 = (s3, .ok e) →
      cForm w = r.2 → collOk w = true → cCid w ∉ s3.dray.held → cP w ≠ 1 → (s3.quarter q).early = [] → completes (r.1 q) s fun t =>
        (t.quarter q).coll = some { n := head, words := w, hmk := s3.quarterHmk q, todo := ownBlocks w, left := expectedElems w }
          ∧ packetsSent s3 t [(cNext w, 7, .hello (collHello w), [])] ∧ t.benches = s3.benches ∧ t.mem = s3.mem)
  ∧ (∀ (q : HallId) (h : Hello) (c : Coll) (s : State), clockOn s → (s.quarter q).coll = some c → c.met = false → c.failed = none →
      let u := s.unload fun k => k.body == .hello h
      let both (why : BitVec 8) := [distressTo (cNext c.words) (cCid c.words) s.ownPeer why, distressTo (cPrev c.words) (cCid c.words) s.ownPeer why]
      (h = collExpects c.words → c.todo = [] → c.inbox = [] → c.left ≠ 0 → completes (.alloyHello q h) s fun t =>
          (t.quarter q).coll = some { c with met := true } ∧ { t with dray := u.dray } = u ∧ t.dray.ports = u.dray.ports)
      ∧ (h ≠ collExpects c.words → completes (.alloyHello q h) s fun t => collEnds u t q c 0x10 (both 3))
      ∧ completes (.collTimeout q) s fun t => collEnds s t q c 0x11 (both 2))
  ∧ (∀ (q : HallId) (chunk elem : Nat) (data d : List Byte) (c : Coll) (s s1 : State), clockOn s → (s.quarter q).coll = some c →
      c.met = true → c.failed = none → c.todo = [] → c.inbox = [] → c.wait = none → c.got = [] → (s.quarter q).ringWait = none →
      cFmt c.words = 4 → cOp c.words = 0 → cAcc c.words = false → chunk ≠ cRank c.words →
      let n := data.length / 4
      let b : Block := ⟨chunk, elem, false, data⟩
      let u := (s.unload (Packet.isBlock · b)).updColl q fun c => { c with inbox := [b] }
      n < c.left → State.collRead q (pageParts (srcAt c.words elem) (n * 4)) [] u = (s1, .ok d) → n ≠ 0 →
      (s1.quarter q).coll = some { c with inbox := [b] } → (s1.quarter q).ringWait = none →
      completes (.alloyData q chunk elem false data) s fun t =>
        (t.quarter q).coll = some { c with left := c.left - n }
          ∧ packetsSent s1 t [(cNext c.words, 6, .block (cCid c.words) chunk elem false, (List.range n).flatMap fun i =>
              leBytes 4 ((leVal ((data.drop (4 * i)).take 4) + leVal ((d.drop (4 * i)).take 4)) % 2 ^ 32))])
  ∧ (∀ (q : HallId) (cid : BitVec 16) (origin : PeerId) (why : BitVec 8) (prev : Bool) (s : State), clockOn s →
      let u := s.unload fun k => k.body == .distress cid origin why
      (s.withCid cid = [] → completes (.distress q cid origin why prev) s fun t => cid ∈ t.dray.held ∧ t.out = u.out
          ∧ t.dray.quarters = s.dray.quarters
          ∧ (s.ready = true → reported s t
              { src := 5, event := 8, unit_ := BitVec.ofNat 16 (16 + q.val), w2 := cid.setWidth 64, w3 := origin.setWidth 64 }))
      ∧ (∀ x w c, s.withCid cid = [(x, w)] → (s.quarter x).coll = some c → (cid, origin) ∉ s.dray.forwarded →
          completes (.distress q cid origin why prev) s fun t => cid ∈ t.dray.held ∧ (cid, origin) ∈ t.dray.forwarded
            ∧ ∃ v, collEnds u v x c 0x12 [] ∧ packetsSent v t [distressTo (if prev then cNext w else cPrev w) cid origin why]
                ∧ t.quarter x = v.quarter x)
      ∧ completes (.distressHoldExpiry cid) s fun t => (∀ x, x ∈ t.dray.held ↔ x ∈ s.dray.held ∧ x ≠ cid)
          ∧ { t with dray := s.dray } = s)
  ∧ ∀ (q : HallId) (s : State), clockOn s → s.fld .alyQStatus q.val 31 31 = 0 → s.fld .alyQStatus q.val 29 29 = 1 →
      completes (.alloyQuarterDisable q) s fun t => t.fld .alyQStatus q.val 31 31 = 1 ∧ t.fld .alyQStatus q.val 29 29 = 0
        ∧ t.fld .alyQRingCfg q.val 31 31 = 0 ∧ (t.quarter q).coll = none ∧ t.benches = s.benches ∧ t.mem = s.mem

/-! ## Sheler and power (15) -/

/-- A sample is filtered (15 R451) and raises a shop to the level that its temperature enters (R452); a level falls by one after 10 ms (R452),
a shop's clock takes the largest request or stops (R448, R449, R453), DWELL starts distress (R454); a trip stops the clocks (R456; 18
R517); the power step follows the mean (R457); droops are counted (R461); Nap, Doze and Awake (R462); a rule's floor acts (R463). A clock that runs again delivers what has come meanwhile
(R453).
Times are counted in samples of 10 microseconds and power checks of 1 ms (DESIGN CHOICE, log 100). -/
def Obligations.ShelerPower : Prop :=
  (∀ (samples : List (Nat × Int)) (p : Nat) (k : ShopId) (n : Nat) (v x : Int) (s : State), watchOn s →
      (samples = [(n, v)] → n < 144 → completes (.sensorSample samples p) s fun t =>
        Sp.find t.sheler.filt n = some
          (match Sp.find s.sheler.filt n with
           | some old => (old * 2 ^ s.fld .shlFilt 0 26 24 + (v - old)).tdiv (2 ^ s.fld .shlFilt 0 26 24)
           | none => v))
      ∧ ((samples.foldl State.sampleOne s).hottest (4 * k.val) 4 = some x → s.fld .shlShopStat k.val 28 26 ≠ 2 →
        completes (.sensorSample samples p) s fun t =>
          t.fld .shlShopStat k.val 28 26 = max (s.fld .shlShopStat k.val 28 26) (quenchOf x)
            ∧ ∀ b, (t.bench b).store = (s.bench b).store)
      ∧ (s.hottest (4 * k.val) 4 = some x → 0 < s.fld .shlShopStat k.val 28 26 → 1000 ≤ Sp.get (fun _ => 0) s.sheler.leave k.val →
        completes (.quenchFall k) s fun t => t.fld .shlShopStat k.val 28 26 = s.fld .shlShopStat k.val 28 26 - 1
          ∧ Sp.find t.sheler.leave k.val = none))
  ∧ (∀ (k : ShopId) (s : State), clockOn s →
      (s.divWanted k.val = 4 → completes (.level4Stop k) s fun t => t.fld .shlShopStat k.val 31 29 = 4
          ∧ { t with regs := s.regs } = s ∧ ∀ b, shopOf b = k → t.aclock b = false)
      ∧ (s.divWanted k.val < 4 → completes (.divisorChange k) s fun t => ∃ u : State,
          u.fld .shlShopStat k.val 31 29 = s.divWanted k.val ∧ { u with regs := s.regs } = s ∧ t = u.deliver
            ∧ (nothingWaits s → (∀ b, t.bench b = s.bench b) ∧ t.mem = s.mem ∧ t.fld .shlShopStat k.val 31 29 = s.divWanted k.val))
      ∧ completes (.droopStretch k) s fun t => { t with sheler := s.sheler } = s
          ∧ ∀ j, Sp.get (fun _ => 0) t.sheler.droops j = Sp.get (fun _ => 0) s.sheler.droops j + if j = k.val then 1 else 0)
  ∧ (∀ (k : ShopId) (s : State), watchOn s → s.fld .shlShopStat k.val 28 26 = 4 → k ∉ s.sheler.dwelt →
      max 1 (s.fld .shlFilt 0 15 0) ≤ s.fld .shlShopStat k.val 15 0 → (∀ q, (s.quarter q).coll = none) →
      completes (.dwellExpired k) s fun t => t.sheler.dwelt = k :: s.sheler.dwelt ∧ t.out = s.out
        ∧ (s.ready = true → s.sec.runtime = true → reported s t
            { src := 7, event := 3, unit_ := BitVec.ofNat 16 k.val, w2 := BitVec.ofNat 64 (s.fld .shlShopStat k.val 15 0) }))
  ∧ (∀ (sensor : Byte) (t1 t2 : Int) (s : State), watchOn s →
      (64 ≤ sensor.toNat → sensor.toNat < 144 → 115 * 4 ≤ t1 → 115 * 4 ≤ t2 →
        completes (.thermalTrip sensor t1 t2) s fun t => tripped s t sensor (BitVec.ofInt 12 t2))
      ∧ (t1 < 115 * 4 → completes (.thermalTrip sensor t1 t2) s fun t => t = s)
      ∧ completes .refclkLoss s fun t => tripped s t 0xFF 0)
  ∧ (∀ (mean : Nat) (s : State), watchOn s → s.sheler.acting = [] →
      let cap := min 1900 (s.fld .pwrLimit 0 11 0)
      let step (t : State) (n : Nat) : Prop :=
        t.fld .pwrStat 0 2 0 = n ∧ ∀ k : ShopId, t.fld .shlShopStat k.val 22 20 = n
      (cap < mean → s.sheler.above = 1 → s.fld .pwrStat 0 2 0 < 3 → completes (.powerCheck mean) s fun t =>
          step t (s.fld .pwrStat 0 2 0 + 1) ∧ t.sheler.above = 0)
      ∧ (mean ≤ cap → 10 * mean < 9 * cap → s.sheler.under = 19 → 0 < s.fld .pwrStat 0 2 0 → completes (.powerCheck mean) s fun t =>
          step t (s.fld .pwrStat 0 2 0 - 1) ∧ t.sheler.under = 0)
      ∧ (mean ≤ cap → 9 * cap ≤ 10 * mean → completes (.powerCheck mean) s fun t =>
          t.regs = s.regs ∧ t.sheler.above = 0 ∧ t.sheler.under = 0))
  ∧ (∀ (s : State), clockOn s → s.ready = true → s.fld .pwrStat 0 31 30 = 0 → s.fld .pwrCtl 0 15 0 ≠ 0 → s.deviceIdle = true →
      completes .napEntry s fun t => t.fld .pwrStat 0 31 30 = 1 ∧ (∀ b, t.aclock b = false) ∧ { t with regs := s.regs } = s)
  ∧ (∀ (s : State), watchOn s →
      (s.rootOn = true → s.fld .pwrStat 0 31 30 = 1 → (∀ p, p < 12 → s.portState p = 0) → s.moversBusy = false →
        completes .dozeRequest s fun t => t.fld .pwrStat 0 31 30 = 2 ∧ t.rootOn = false ∧ t.mem.dram = s.mem.dram
          ∧ t.benches = s.benches)
      ∧ (s.rootOn = true → s.fld .pwrStat 0 31 30 ≠ 1 → completes .dozeRequest s fun t => t.fld .pwrStat 0 29 29 = 1
          ∧ t.rootOn = true ∧ { t with regs := s.regs } = s)
      ∧ (∀ c ∈ [Instr.awakeRequest, Instr.dozeWake], s.fld .pwrStat 0 31 30 = 2 → completes c s fun t =>
          t.rootOn = true ∧ t.mem.serv.selfRef = []
            ∧ (nothingWaits s → t.fld .pwrStat 0 31 30 = 0 ∧ t.mem.dram = s.mem.dram ∧ ∀ b, t.bench b = s.bench b)))
  ∧ ∀ (n : Nat) (s : State), watchOn s → onlyRule s n → completes .ruleEvaluation s fun t => t.sheler.acting = [n]
      ∧ (∀ k : ShopId, t.fld .shlShopStat k.val 19 17 = if k.val ∈ s.ruleShops n then bits (s.ruleHi n) 11 0 else 0)
      ∧ t.mem = s.mem

/-! ## Registers (16) -/

/-- A write changes the writable fields of its register alone (00 R11, R14; 16 R466); a moulded field changes at a POUR of its group (R471,
R472); a posted write lands later (R475, R476); parity failures are recorded (R477, R478) and assay votes a single copy right (R477). -/
def Obligations.RegisterWrites : Prop :=
  (∀ (off : Nat) (v : W32) (s : State), portOn s → s.fld .pwrStat 0 31 30 ≠ 2 → off % 4 = 0 → s.pathMsix .pf off = none →
      (∀ r, s.pathReg .pf off = some r → r.kind ∈ plainKinds → completes (.registerWrite .pf off v) s fun t =>
        let rw := maskOf (fun k => k == .rw) r.kind.fields
        let w1c := maskOf (fun k => k == .w1c) r.kind.fields
        regTakes s t r ((s.reg r &&& ~~~rw ||| v &&& rw) &&& ~~~(v &&& w1c)) ∧ { t with regs := s.regs } = s)
      ∧ (∀ r, s.pathReg .pf off = some r → r.kind ∈ mouldKinds → completes (.registerWrite .pf off v) s fun t =>
        regTakes s t r (s.reg r) ∧ Sp.find t.moulds r.off = some (v &&& maskOf (fun k => k == .rwm) r.kind.fields)
          ∧ ∀ o, o ≠ r.off → Sp.find t.moulds o = Sp.find s.moulds o)
      ∧ (∀ r, s.pathReg .pf off = some r → r.kind = .benXjSp ∨ r.kind = .benXjSl → completes (.registerWrite .pf off v) s fun t =>
        let rw := maskOf (fun k => k == .rw) r.kind.fields
        let c := (s.bench (benchOf r.u)).core
        regTakes s t r (s.reg r &&& ~~~rw ||| v &&& rw) ∧ onlyBench { s with regs := t.regs } t (benchOf r.u)
          ∧ t.bench (benchOf r.u) = { s.bench (benchOf r.u) with
              core := if r.kind = .benXjSp then { c with jspHi := 0 } else { c with jslHi := 0 } })
      ∧ (s.pathReg .pf off = none → completes (.registerWrite .pf off v) s fun t => t = s))
  ∧ (∀ (mask m : W32) (off : Nat) (r : Reg) (s : State), portOn s → s.moulds = [(off, m)] → regAt off = some r →
      r.kind ∈ mouldKinds → r.off = off → off ∉ s.badMoulds →
      (pourNames mask off = some r → completes (.mldPour mask) s fun t =>
        regTakes s t r (s.reg r &&& ~~~maskOf (fun k => k == .rwm) r.kind.fields ||| m) ∧ t.moulds = []
          ∧ { t with regs := s.regs, moulds := s.moulds } = s)
      ∧ (pourNames mask off = none → completes (.mldPour mask) s fun t => t = s))
  ∧ (∀ (off lot : Nat) (v : W32) (s : State), portOn s →
      (Sp.find s.posted 10 = some (off, v, lot) → completes (.postedWriteLand 10) s fun t => t.lot lot = v
          ∧ (∀ n, n ≠ lot → t.lot n = s.lot n) ∧ t.fld .hmkLotStat 0 0 0 = 0 ∧ Sp.find t.posted 10 = none)
      ∧ (∀ r, Sp.find s.posted 4 = some (off, v, lot) → regAt off = some r → r.kind ∈ [RegKind.shlRuleLo, .shlRuleHi, .shlSensSel] →
        completes (.postedWriteLand 4) s fun t => Sp.find t.posted 4 = none ∧ t.fld .shlFilt 0 31 31 = 0
          ∧ t.reg r &&& maskOf (fun k => k == .rwp) r.kind.fields = v &&& maskOf (fun k => k == .rwp) r.kind.fields)
      ∧ (off ∈ s.pouring → completes (.pourFieldLand off) s fun t => off ∉ t.pouring
          ∧ t.fld .mldStatus 0 31 31 = if t.pouring = [] then 0 else 1))
  ∧ (∀ (off k : Nat) (b : BenchId) (mould : Bool) (p r : Reg) (s : State), portOn s → blockBench off = (k, b.val) →
      protReg k b.val = some p → regAt off = some r → (s.reg p).getLsbD 0 = false →
      completes (.parityScrub k [(off, mould)]) s fun t => (t.reg p).getLsbD 1 = true
        ∧ t.fld .mldStatus 0 15 0 = min (s.fld .mldStatus 0 15 0 + 1) 65535 ∧ (mould = true → off ∈ t.badMoulds)
        ∧ (s.ready = true → ∃ e : ErrRec, e.src = 0xA ∧ e.event = 1 ∧ e.unit_ = BitVec.ofNat 16 (k * 256 + b.val) ∧ reported s t e))
  ∧ (∀ (k : Nat) (b : BenchId) (mode : Bool) (p : Reg) (s : State), portOn s → protReg k b.val = some p →
      completes (.protModeWrite k b mode) s fun t => (∃ v, regTakes s t p v) ∧ (t.reg p).getLsbD 0 = mode
        ∧ (∀ i, 0 < i → (t.reg p).getLsbD i = (s.reg p).getLsbD i) ∧ { t with regs := s.regs } = s)
  ∧ ∀ (k off : Nat) (b : BenchId) (x : W32) (p r : Reg) (s : State), portOn s → protReg k b.val = some p → regAt off = some r →
      blockBench off = (k, if k < 17 then 0 else b.val) → (s.reg p).getLsbD 0 = true → r.off ≠ p.off →
      (∀ mould, x &&& maskOf (fun t => t == .rwm || (!mould && (t == .rw || t == .rwp || t == .rwa || t == .w1c))) r.kind.fields ≠ 0 →
        ∀ f ∈ [{ off, mould, x }, { off, mould, y := x }, ({ off, mould, z := x } : Flip)],
          completes (.assayVote k b [f]) s fun t => t.reg r = s.reg r
            ∧ bits (t.reg p) 31 16 = min 65535 (bits (s.reg p) 31 16 + 1) ∧ { t with regs := s.regs } = s)
      ∧ (x &&& r.writable ≠ 0 → completes (.assayVote k b [{ off, x, z := x }]) s fun t => t.reg r = s.reg r ^^^ (x &&& r.writable))

/-- An enable brings a block up at once, or waits in PEND_EN while the block drains (16 R479, R480); a block that has drained goes off, or
comes up again (R480, table 16.4; 10 R341, R529; 12 R386; 14 R433; 17 R505).
What a draining block shows is the reading of log 107 (DEDUCED). -/
def Obligations.EnablesAndDrains : Prop :=
  (∀ (c : CarterId) (s : State), clockOn s →
      (s.carterFld c 3 31 31 = 0 → s.carterFld c 3 29 29 = 0 → completes (.enableWrite (.carter c)) s fun t =>
        t.carterOn c = true ∧ t.carterFld c 4 31 31 = 1 ∧ { t with regs := s.regs } = s)
      ∧ (s.carterFld c 3 31 31 = 1 → completes (.enableWrite (.carter c)) s fun t =>
        t.carterFld c 3 31 29 = 6 ∧ t.carterFld c 4 31 31 = 1 ∧ { t with regs := s.regs } = s)
      ∧ (s.carterFld c 3 31 31 = 1 → (s.carter c).loc = [] → (s.carter c).fore = [] → s.carterQuiet c = true →
        (∀ b, carterBench c = some b → s.settled (.ladle b) = true) → completes (.blockDrainComplete (.carter c)) s fun t =>
          t.carterFld c 3 31 29 = s.carterFld c 3 30 30 ∧ t.carterFld c 4 31 31 = s.carterFld c 3 30 30
            ∧ { t with regs := s.regs } = s)
      ∧ (s.carterFld c 2 31 31 = 0 → completes (.enableWrite (.localRing c)) s fun t =>
        t.carterFld c 2 31 31 = 1 ∧ t.carter c = { s.carter c with reread := true })
      ∧ (s.localBusy c = false → completes (.blockDrainComplete (.localRing c)) s fun t =>
        t.carterFld c 3 24 24 = 0 ∧ { t with regs := s.regs } = s)
      ∧ (s.localBusy c = true → completes (.blockDrainComplete (.localRing c)) s fun t => t = s))
  ∧ (∀ (h : HopperId) (s : State), clockOn s →
      (s.fld .hopStatus h.val 31 31 = 0 → s.fld .hopStatus h.val 29 29 = 0 → completes (.enableWrite (.hopper h)) s fun t =>
        t.hopOn h = true ∧ t.fld .hopCfg h.val 31 31 = 1 ∧ { t with regs := s.regs } = s)
      ∧ (s.fld .hopStatus h.val 31 31 = 1 → s.hopperBusy h = false → completes (.blockDrainComplete (.hopper h)) s fun t =>
        t.fld .hopStatus h.val 31 29 = s.fld .hopStatus h.val 30 30 ∧ t.hopper h = {}))
  ∧ (∀ (b : BenchId) (s : State), clockOn s →
      (s.fld .fmnBenchCtl b.val 30 30 = 0 → s.fld .fmnBenchCtl b.val 28 28 = 0 → (s.bench b).excluded = false →
        s.fld .benXstat b.val 31 31 = 0 → s.resetting ≠ some b → completes (.enableWrite (.bench b)) s fun t =>
          t.fld .fmnBenchCtl b.val 31 28 = 9 ∧ { t with regs := s.regs } = s)
      ∧ ((s.bench b).excluded = true → s.fld .fmnBenchCtl b.val 30 30 = 0 → completes (.enableWrite (.bench b)) s fun t => t = s)
      ∧ (s.fld .fmnBenchCtl b.val 30 30 = 1 → (s.bench b).slot = none → completes (.blockDrainComplete (.bench b)) s fun t =>
        t.fld .fmnBenchCtl b.val 31 28 = 9 * s.fld .fmnBenchCtl b.val 29 29 ∧ { t with regs := s.regs } = s))
  ∧ (∀ (f : FnId) (s : State), clockOn s → f.val ≠ 0 →
      (s.fld .pexFnCtl f.val 30 30 = 0 → s.fld .pexFnCtl f.val 28 28 = 0 → completes (.enableWrite (.fn f)) s fun t =>
        t.fld .pexFnCtl f.val 31 28 = 9 ∧ { t with regs := s.regs } = s)
      ∧ (s.fld .pexFnCtl f.val 30 30 = 1 → s.fnSlots f = [] → completes (.blockDrainComplete (.fn f)) s fun t =>
        t.fld .pexFnCtl f.val 31 28 = 9 * s.fld .pexFnCtl f.val 29 29 ∧ { t with regs := s.regs } = s))
  ∧ (∀ (r : RingId) (s : State), clockOn s → s.fnOn (s.ringFn r) = true →
      (s.fld .cthRingCfg r.val 30 30 = 0 → completes (.enableWrite (.ring r)) s fun t => t.fld .cthRingCfg r.val 31 31 = 1
        ∧ t.ring r = { s.ring r with mute := false } ∧ { t with regs := s.regs, rings := s.rings } = s)
      ∧ (s.fld .cthRingCfg r.val 30 30 = 1 → (s.ring r).entries = [] → (s.ring r).slot = none →
        completes (.blockDrainComplete (.ring r)) s fun t => t.fld .cthRingCfg r.val 30 30 = 0
          ∧ t.fld .cthRingCfg r.val 31 31 = s.fld .cthRingCfg r.val 31 31 ∧ t.ringHalted r = false))
  ∧ ∀ (p : PortId) (q : HallId) (s : State), clockOn s →
      (s.firmwareIn = true → s.fld .dryPortStat p.val 31 31 = 0 → s.fld .dryPortCfg p.val 31 31 = 0 →
        completes (.enableWrite (.port p)) s fun t => t.fld .dryPortCfg p.val 31 31 = 1 ∧ t.portState p.val = 1
          ∧ { t with regs := s.regs } = s)
      ∧ (s.fld .dryPortStat p.val 31 31 = 1 → (s.port p.val).queue = [] → (s.port p.val).replay = [] →
        completes (.blockDrainComplete (.port p)) s fun t => t.fld .dryPortStat p.val 31 30 = 0
          ∧ t.fld .dryPortCfg p.val 31 31 = s.fld .dryPortStat p.val 30 30 ∧ t.portState p.val = s.fld .dryPortStat p.val 30 30)
      ∧ (s.fld .alyQStatus q.val 31 31 = 1 → (s.quarter q).coll = none → s.collQuiet q = true →
        completes (.blockDrainComplete (.quarter q)) s fun t => t.fld .alyQStatus q.val 31 30 = 0
          ∧ t.fld .alyQStatus q.val 29 29 = s.fld .alyQStatus q.val 30 30 ∧ t.fld .alyQRingCfg q.val 31 31 = s.fld .alyQStatus q.val 30 30)
      ∧ (s.fld .alyQStatus q.val 31 31 = 0 → s.fld .alyQStatus q.val 29 29 = 0 → completes (.enableWrite (.quarter q)) s fun t =>
        t.quarterOn q = true ∧ t.fld .alyQRingCfg q.val 31 31 = 1 ∧ t.quarter q = { s.quarter q with reread := true })

/-! ## Resets, start-up, identity and images (17) -/

/-- Power and PERST_N reset everything but SHL_TRIP and a trip record that is due (17 R482, table 17.1); the release samples the straps
(R483; 18 R521). The mailbox takes commands by phase, PF bus mastering and format (R497); a record, its enrolment and its verification
(R488 to R490); images (R493, R502, R503) and configuration lists (R499); benches that fail are excluded (R504); READY (R487); a stopped
runtime (R503); a rail that departs (18 R513). The state after POWER_OFF is the model's (DESIGN CHOICE, log 17). -/
def Obligations.StartUp : Prop :=
  (∀ s : State,
      completes .powerOn s (restarted s · fun _ => false)
      ∧ completes .powerOff s (restarted s · fun _ => false)
      ∧ completes .perstAssert s fun t => restarted s t (· == (Reg.mk .shlTrip 0 0).off)
          ∧ t.reg ⟨.shlTrip, 0, 0⟩ = s.reg ⟨.shlTrip, 0, 0⟩ ∧ t.sheler.tripSeen = s.sheler.tripSeen)
  ∧ (∀ (x : Straps) (s : State), s.departed = false → s.sec.perst = true → completes (.perstRelease x) s fun t =>
      t.sec.perst = false ∧ t.sec.straps = x ∧ t.fld .secState 0 31 28 = 1 ∧ t.fld .pwrGov 0 31 29 = x.slewset.toNat
        ∧ { t with regs := s.regs, sec := s.sec } = s)
  ∧ (∀ s : State, s.departed = false → completes .railDeparture s fun t => t.departed = true ∧ { t with departed := false } = s)
  ∧ (∀ (m : Mbox) (s : State), mailboxOpen s → m.fail = false → s.phase = 1 →
      (completes (.putRecord m []) s fun t => answered t 0 ∧ t.phase = 2 ∧ t.fld .secState 0 25 25 = 1 ∧ t.sec.entries = []
        ∧ t.sec.unverified = none)
      ∧ (∀ helper es sig, helper.length = 4096 → es.length ≤ 4096 → sig.length ≤ 1280 →
        completes (.putRecord m (recordBlob helper es sig)) s fun t => answered t 0 ∧ t.phase = 2 ∧ t.sec.helper = helper
          ∧ t.sec.entries = es ∧ t.fld .secState 0 25 25 = s.fld .secState 0 25 25)
      ∧ (∀ d, d ≠ [] → fieldVal d 0 4 ≠ 0x50524543 → completes (.putRecord m d) s fun t => answered t 1 ∧ t.sec = { s.sec with started := none }))
  ∧ (∀ (d : List Byte) (m : Mbox) (s : State), watchOn s → s.fld .secMboxStat 0 31 31 = 0 → s.runtimeStopped = false →
      (s.phase ≠ 1 → completes (.putRecord m d) s fun t => answered t 6 ∧ t.sec = { s.sec with started := none })
      ∧ (s.phase = 1 → (s.fn 0).busMaster = false → completes (.putRecord m d) s fun t => answered t 7
        ∧ t.sec = { s.sec with started := none })
      ∧ (s.phase = 1 → (s.fn 0).busMaster = true → m.fail = true → completes (.putRecord m d) s fun t => answered t 8
        ∧ t.sec = { s.sec with started := none }))
  ∧ (∀ s : State, watchOn s → s.sec.fetched = true → s.fld .secState 0 27 27 = 0 →
      let seed := shake256 (Config.correctedBits s.sec.helper) 64
      (s.sec.unverified = none → completes .identityKeyDerived s fun t => t.fld .secState 0 27 27 = 1 ∧ t.sec = { s.sec with seed })
      ∧ ∀ msg sig, s.sec.unverified = some (msg, sig) → completes .identityKeyDerived s fun t =>
        t.fld .secState 0 27 27 = 1 ∧ t.sec.seed = seed ∧ t.sec.unverified = none
          ∧ (Config.falconVerify (Config.falconPublic seed) (shake256 msg 64) sig = true → t.sec.entries = s.sec.entries
              ∧ t.measurement 4 = shake256 (s.measurement 4 ++ shake256 msg 64) 64)
          ∧ (Config.falconVerify (Config.falconPublic seed) (shake256 msg 64) sig = false → t.sec.entries = []
              ∧ t.fld .secState 0 26 26 = 1 ∧ t.measurement 4 = s.measurement 4))
  ∧ (∀ (m : Mbox) (k : BitVec 4) (d : List Byte) (s : State), watchOn s → s.fld .secMboxStat 0 31 31 = 0 →
      (s.fn 0).busMaster = true → m.fail = false →
      (s.allowed 2 k.toNat = true → completes (.putImage m k d) s fun t => answered t (s.imageStatus d k.toNat)
          ∧ (fieldVal d 0 4 ≠ 0x494D4745 → s.imageStatus d k.toNat = 1)
          ∧ (s.imageStatus d k.toNat ≠ 0 → t.sec = { s.sec with started := none })
          ∧ (s.imageStatus d k.toNat = 0 → (s.ready = false ∨ s.runtimeStopped = true) →
              Sp.find t.sec.current k.toNat = some (imageOf d)
                ∧ t.measurement k.toNat = shake256 (s.measurement k.toNat ++ shake256 (d.take 0x800) 64) 64
                ∧ (k.toNat = 1 → t.sec.runtime = true))
          ∧ (s.imageStatus d k.toNat = 0 → s.ready = true → s.runtimeStopped = false →
              t.sec = { s.sec with started := none, staged := Sp.put s.sec.staged k.toNat (imageOf d) }))
      ∧ (s.allowed 2 k.toNat = false → completes (.putImage m k d) s fun t => answered t 6 ∧ t.sec = { s.sec with started := none }))
  ∧ (∀ (k : BitVec 4) (i : Image) (s : State), mailboxOpen s → s.ready = true → Sp.find s.sec.staged k.toNat = some i →
      completes (.activate k) s fun t => answered t 0 ∧ Sp.find t.sec.current k.toNat = some i ∧ Sp.find t.sec.staged k.toNat = none
        ∧ t.measurement k.toNat = shake256 (s.measurement k.toNat ++ shake256 i.header 64) 64
        ∧ (k.toNat ≠ 1 → s.sec.runtime = true → reported s t
            { src := 7, event := 0x12, unit_ := 0xFFFF, w2 := BitVec.ofNat 64 k.toNat, w3 := BitVec.ofNat 64 i.svn.toNat }))
  ∧ (∀ (m : Mbox) (v : W32) (r : Reg) (s : State), mailboxOpen s → m.fail = false → s.phase = 1 ∨ s.phase = 2 → s.moulds = [] →
      s.posted = [] →
      (∀ d, fieldVal d 0 4 ≠ 0x43464731 → completes (.putConfig m d) s fun t => answered t 1 ∧ t.sec = { s.sec with started := none })
      ∧ (r.kind ∈ plainKinds → regAt r.off = some r → r.off % 4 = 0 → 2 ≤ blockOf r.off → blockOf r.off < 17 →
        completes (.putConfig m (leBytes 4 0x43464731 ++ leBytes 4 1 ++ leBytes 4 v.toNat ++ leBytes 4 r.off)) s fun t =>
          answered t 0 ∧ t.sec.configured = true ∧ t.phase = (if s.phase = 2 ∧ s.sec.runtime = true then 4 else s.phase)
            ∧ let rw := maskOf (fun k => k == .rw) r.kind.fields
              let w1c := maskOf (fun k => k == .w1c) r.kind.fields
              t.reg r = (s.reg r &&& ~~~rw ||| v &&& rw) &&& ~~~(v &&& w1c)))
  ∧ (∀ (ts : List SelfTest) (b : BenchId) (u : Byte) (s : State), clockOn s → s.phase = 4 → s.firmwareIn = true → s.sec.tested = false →
      s.sec.entries = [] → s.sec.unverified = none →
      (ts = [] → completes (.benchSelfTest ts) s fun t => t.sec.tested = true ∧ ∀ c, (t.bench c) = s.bench c
        ∧ t.reg ⟨.frgRowmap, c.val, 0⟩ = 0)
      ∧ (ts = [{ bench := b, unit_ := some u }] → completes (.benchSelfTest ts) s fun t => t.sec.tested = true
        ∧ (∀ c, (t.bench c).excluded = if c = b then true else (s.bench c).excluded) ∧ t.fld .fmnBenchCtl b.val 30 30 = 0))
  ∧ (∀ s : State, clockOn s →
      (s.phase = 4 → s.firmwareIn = true → s.sec.tested = true → s.yardDone = true → s.sec.unverified = none →
        s.fld .secState 0 27 27 = 1 → s.sec.runtime = true → (∀ r ∈ s.heldRecs, r.fn = 0) → s.sheler.tripSeen = none →
        completes .ready s fun t => t.ready = true ∧ t.heldRecs = [] ∧ Sp.get (fun _ => []) t.errq 0
          = Sp.get (fun _ => []) s.errq 0 ++ s.heldRecs ∧ t.mem = s.mem)
      ∧ (s.sec.tested = false → completes .ready s fun t => t = s))
  ∧ ∀ s : State, watchOn s → s.sec.runtime = true → completes .runtimeWatchdog s fun t => t.sec = { s.sec with runtime := false }
      ∧ t.fld .secState 0 24 24 = 1 ∧ (s.ready = true → t.errq = s.errq
        ∧ t.sheler.waitRecs = s.sheler.waitRecs ++ [{ src := 7, event := 0x13, unit_ := 0xFFFF }])

/-- The mailbox returns the part record, measurements and attestations (17 R491, R497, R501); the sideband reads and writes the registers of
its blocks and answers requests (R500); an Alert Response read collects the notices under SMBus (18 R520); the JTAG instructions, of
which those that drive pins act only while PERST_N is asserted (18 R522, R523).
What a request out of reach answers and how JTAG instructions are numbered is the model's (logs 129, 131). -/
def Obligations.ServicePaths : Prop :=
  (∀ (m : Mbox) (nonce : List Byte) (s : State), mailboxOpen s → m.fail = false → s.linkUp (s.linkOf 0) = true →
      completes (.getMeas m) s (returned s · m s.measBytes)
      ∧ (s.fld .secState 0 27 27 = 1 → completes (.attest m nonce) s (returned s · m (attestation s nonce))
        ∧ completes (.getRecord m) s (returned s · m (signedRecord s)))
      ∧ (s.fld .secState 0 27 27 = 0 → ∀ c ∈ [Instr.attest m nonce, .getRecord m], completes c s fun t => answered t 6
        ∧ t.mem = s.mem))
  ∧ (∀ (off : Nat) (v : W32) (r : Reg) (s : State), portOn s →
      completes (.regRead off) s (fun t => t.out = s.out ++ [.reply (leBytes 4 (if blockOf off ≤ 4 then (s.spaceVal off).toNat else 0))]
        ∧ t.regs = s.regs ∧ t.sec = s.sec)
      ∧ (regAt off = some r → r.kind ∈ plainKinds → off % 4 = 0 → blockOf off ≤ 4 → completes (.regWrite off v) s fun t =>
        let rw := maskOf (fun k => k == .rw) r.kind.fields
        let w1c := maskOf (fun k => k == .w1c) r.kind.fields
        regTakes s t r ((s.reg r &&& ~~~rw ||| v &&& rw) &&& ~~~(v &&& w1c)) ∧ { t with regs := s.regs } = s)
      ∧ (4 < blockOf off → completes (.regWrite off v) s fun t => t = s))
  ∧ (∀ (nonce : List Byte) (s : State), portOn s →
      completes .getState s (fun t => t.out = s.out ++ [.reply (leBytes 4 (s.regVal ⟨.secState, 0, 0⟩).toNat)])
      ∧ completes .sbGetMeas s (fun t => t = s.emit (.reply s.measBytes))
      ∧ (s.fld .secState 0 27 27 = 1 → completes (.sbAttest nonce) s fun t => t.out = s.out ++ [.reply (attestation s nonce)])
      ∧ (s.fld .secState 0 27 27 = 0 → completes (.sbAttest nonce) s fun t => t.out = s.out ++ [.reply [6]]))
  ∧ (∀ s : State, s.departed = false →
      (s.sec.straps.sbmode = 0 → completes .alertResponse s fun t => t.sheler.notices = 0 ∧ t.alertAsserted = false
        ∧ { t with sheler := { t.sheler with notices := s.sheler.notices } } = s)
      ∧ (s.sec.straps.sbmode = 1 → completes .alertResponse s fun t => t = s))
  ∧ ∀ s : State, s.departed = false →
      completes .bypass s (fun t => t.sec.jtag = 0 ∧ { t with sec := s.sec } = s)
      ∧ completes .idcode s (fun t => t.sec.jtag = 1 ∧ t.out = s.out ++ [.tdo 1 0x1025669B] ∧ { t with sec := s.sec, out := s.out } = s)
      ∧ completes .samplePreload s (fun t => t.sec.jtag = 2 ∧ { t with sec := s.sec } = s)
      ∧ ∀ c ∈ [(Instr.extest, 3#4), (.extestPulse, 4), (.extestTrain, 5), (.clamp, 6), (.highz, 7)], completes c.1 s fun t =>
        t.sec.jtag = (if s.sec.perst then c.2 else 0) ∧ { t with sec := s.sec } = s

/-! ## The whole device -/

/-- After reset: the registers hold the values of the manual's reset columns (00 R13), no clock runs and PERST_N is asserted (17 R482), no
core runs, every engine queue is empty, and nothing waits. The invariants below hold. -/
def Obligations.ResetState : Prop :=
  (∀ e ∈ resetRows, ∀ u n, State.reset.reg ⟨e.1, u, n⟩ = e.2)
    ∧ (∀ b, (State.reset.bench b).core.running = false ∧ (State.reset.bench b).core.xdepth = 0
        ∧ (State.reset.bench b).lathe.queue = [] ∧ (State.reset.bench b).forge.queue = [])
    ∧ State.reset.rootOn = false ∧ State.reset.sec.perst = true ∧ State.reset.pending = []
    ∧ legalLevels State.reset ∧ memoryCanonical State.reset

/-- Once a supply or REFCLK has left its band, no rule binds the device: every command but a power change and the assertion of PERST_N stops
as unbound, until the next device reset (18 R513). Before, every command completes (the model's choice: DESIGN CHOICE, log 10), and none is ever refused. -/
def Obligations.DepartedStops : Prop :=
  ∀ (c : Instr) (s : State),
    (c = .powerOn ∨ c = .powerOff ∨ c = .perstAssert → ∃ t, exec c s = .next t ∧ t.departed = false)
    ∧ (c ≠ .powerOn → c ≠ .powerOff → c ≠ .perstAssert → s.departed = true → exec c s = .fault .unbound)
    ∧ (s.departed = false → ∃ t, exec c s = .next t)

/-- No step makes a core stand at a fourth level or hold a fifth loop (02 R74; 03 R89, R101; 11 R357). -/
def Obligations.LevelsStayLegal : Prop := ∀ s t : State, legalLevels s → step s = .next t → legalLevels t

/-- Every step keeps the device's memory, and the model's views of host and peer memory, in their canonical form: rising addresses, and no
entry that reads as an unlisted address does.
That an unlisted byte reads as 0 is the model's choice (DESIGN CHOICE, log 3). -/
def Obligations.MemoryStaysCanonical : Prop := ∀ s t : State, memoryCanonical s → step s = .next t → memoryCanonical t
end

