-- ==== Sys2Proof/Laws/Doorbell.lean ====
section
/-! SUPPORT. A doorbell's offset and four bytes reach that doorbell with that value (12 R379, table 12.4). -/

namespace Sys2Proof.Machine

/-- Every doorbell is found at its own offset. -/
theorem doorbellAt_bellOffset (d : Doorbell) : doorbellAt (bellOffset d) = some d := by
  cases d with
  | tail r => simp [doorbellAt, bellOffset]
  | resolved => rfl
  | abandoned => rfl
  | shift => rfl
  | cqHead r =>
    have h1 : (0x8000 + 4 * r.val) % 4 = 0 := by omega
    have h2 : ¬ (0x8000 + 4 * r.val) / 4 < 4096 := by omega
    have h3 : 0x8000 + 4 * r.val ≠ 0x4000 ∧ 0x8000 + 4 * r.val ≠ 0x4004 ∧ 0x8000 + 4 * r.val ≠ 0x4008 := by omega
    simp only [doorbellAt, bellOffset, h1, h2, h3, ne_eq, not_true_eq_false, if_false, dite_false]
    simp

/-- The bytes of a word give it back. -/
theorem wordBytes_append (v : W32) :
    v.extractLsb' 24 8 ++ v.extractLsb' 16 8 ++ v.extractLsb' 8 8 ++ v.extractLsb' 0 8 = v := by
  apply BitVec.eq_of_getLsbD_eq
  intro i hi
  simp only [BitVec.getLsbD_append, BitVec.getLsbD_extractLsb']
  by_cases h1 : i < 8
  · simp [h1]
  · by_cases h2 : i - 8 < 8
    · have : 8 + (i - 8) = i := by omega
      simp [h1, h2, this]
    · by_cases h3 : i - 8 - 8 < 8
      · have : 16 + (i - 8 - 8) = i := by omega
        simp [h1, h2, h3, this]
      · have h4 : i - 8 - 8 - 8 < 8 := by omega
        have : 24 + (i - 8 - 8 - 8) = i := by omega
        simp [h1, h2, h3, h4, this]

/-- A write of a doorbell is that doorbell's effect. -/
theorem doorbellWrite_eq (f : FnId) (d : Doorbell) (v : W32) (s : State) : doorbellWrite f d v s = ringDoorbell f d v s := by
  simp only [doorbellWrite, bar0Write, wordBytes, doorbellAt_bellOffset, wordBytes_append]

end Sys2Proof.Machine
end

