-- ==== Sys2Proof/Laws/Sparse.lean ====
section
/-! SUPPORT. Laws of sparse data and of byte memory: reading after a write, and the canonical form that every operation keeps. -/

namespace Sys2Proof.Sp

variable {α : Type}

theorem get_put_same (d : Nat → α) (m : Sparse α) (k : Nat) (v : α) : get d (put m k v) k = v := by
  induction m with
  | nil => simp [put, get]
  | cons p r ih =>
    obtain ⟨j, w⟩ := p
    by_cases hj : j = k
    · simp [put, get, hj]
    · by_cases hk : k < j <;> simp [put, get, hj, hk, ih]

theorem get_put_other (d : Nat → α) (m : Sparse α) {k j : Nat} (v : α) (h : j ≠ k) : get d (put m k v) j = get d m j := by
  induction m with
  | nil => simp [put, get, Ne.symm h]
  | cons p r ih =>
    obtain ⟨i, w⟩ := p
    by_cases hi : i = k
    · subst hi; simp [put, get, Ne.symm h]
    · by_cases hk : k < i
      · simp [put, get, hi, hk, Ne.symm h]
      · simp [put, get, hi, hk, ih]

theorem get_erase_same (d : Nat → α) (m : Sparse α) (k : Nat) : get d (erase m k) k = d k := by
  induction m with
  | nil => simp [erase, get]
  | cons p r ih =>
    obtain ⟨j, w⟩ := p
    by_cases hj : j = k <;> simp [erase, get, hj, ih]

theorem get_erase_other (d : Nat → α) (m : Sparse α) {k j : Nat} (h : j ≠ k) : get d (erase m k) j = get d m j := by
  induction m with
  | nil => simp [erase, get]
  | cons p r ih =>
    obtain ⟨i, w⟩ := p
    by_cases hi : i = k
    · subst hi; simp [erase, get, Ne.symm h, ih]
    · simp [erase, get, hi, ih]

theorem get_set_same [DecidableEq α] (d : Nat → α) (m : Sparse α) (k : Nat) (v : α) : get d (set d m k v) k = v := by
  by_cases h : v = d k <;> simp [set, h, get_erase_same, get_put_same]

theorem get_set_other [DecidableEq α] (d : Nat → α) (m : Sparse α) {k j : Nat} (v : α) (h : j ≠ k) :
    get d (set d m k v) j = get d m j := by
  by_cases hv : v = d k <;> simp [set, hv, get_erase_other d m h, get_put_other d m _ h]

theorem get_set [DecidableEq α] (d : Nat → α) (m : Sparse α) (k j : Nat) (v : α) :
    get d (set d m k v) j = if j = k then v else get d m j := by
  by_cases h : j = k
  · subst h; simp [get_set_same]
  · simp [h, get_set_other]

theorem get_put (d : Nat → α) (m : Sparse α) (k j : Nat) (v : α) :
    get d (put m k v) j = if j = k then v else get d m j := by
  by_cases h : j = k
  · subst h; simp [get_put_same]
  · simp [h, get_put_other]

theorem put_put (m : Sparse α) (k : Nat) (v w : α) : put (put m k v) k w = put m k w := by
  induction m with
  | nil => simp [put]
  | cons p r ih =>
    obtain ⟨j, x⟩ := p
    by_cases hj : j = k
    · simp [put, hj]
    · by_cases hk : k < j <;> simp [put, hj, hk, ih]

theorem find_put (m : Sparse α) (k j : Nat) (v : α) : find (put m k v) j = if j = k then some v else find m j := by
  induction m with
  | nil =>
    by_cases h : j = k
    · subst h; simp [put, find]
    · simp [put, find, h, Ne.symm h]
  | cons p r ih =>
    obtain ⟨i, w⟩ := p
    by_cases hi : i = k
    · subst hi; by_cases h : j = i
      · subst h; simp [put, find]
      · simp [put, find, h, Ne.symm h]
    · by_cases hk : k < i
      · by_cases h : j = k
        · subst h; simp [put, find, hi, hk]
        · simp [put, find, hi, hk, h, Ne.symm h]
      · simp only [put, hi, hk, if_false, find, ih]
        by_cases hij : i = j
        · subst hij; simp [hi]
        · simp [hij]

theorem find_erase (m : Sparse α) (k j : Nat) : find (erase m k) j = if j = k then none else find m j := by
  induction m with
  | nil => simp [erase, find]
  | cons p r ih =>
    obtain ⟨i, w⟩ := p
    by_cases hi : i = k
    · subst hi
      by_cases h : j = i
      · subst h; simp [erase, ih]
      · simp [erase, find, ih, h, Ne.symm h]
    · simp only [erase, hi, if_false, find, ih]
      by_cases hij : i = j
      · subst hij; simp [hi]
      · simp [hij]

/-! ## The canonical form -/

theorem rising_mono {lo lo' : Nat} (h : lo' ≤ lo) (m : Sparse α) (hm : rising lo m = true) : rising lo' m = true := by
  cases m with
  | nil => rfl
  | cons p r =>
    obtain ⟨k, v⟩ := p
    simp [rising] at *
    exact ⟨by omega, hm.2⟩

theorem rising_put (m : Sparse α) (k : Nat) (v : α) : ∀ lo, lo ≤ k → rising lo m = true → rising lo (put m k v) = true := by
  induction m with
  | nil => intro lo hlo _; simp [put, rising, hlo]
  | cons p r ih =>
    obtain ⟨j, w⟩ := p
    intro lo hlo hm
    simp only [rising, Bool.and_eq_true, decide_eq_true_eq] at hm
    by_cases hj : j = k
    · subst hj; simp [put, rising, hm.1, hm.2]
    · by_cases hk : k < j
      · simp only [put, hj, hk, if_false, if_true, rising, Bool.and_eq_true, decide_eq_true_eq]
        exact ⟨hlo, by omega, hm.2⟩
      · simp only [put, hj, hk, if_false, rising, Bool.and_eq_true, decide_eq_true_eq]
        exact ⟨hm.1, ih _ (by omega) hm.2⟩

theorem rising_erase (m : Sparse α) (k : Nat) : ∀ lo, rising lo m = true → rising lo (erase m k) = true := by
  induction m with
  | nil => intro lo h; exact h
  | cons p r ih =>
    obtain ⟨j, w⟩ := p
    intro lo hm
    simp only [rising, Bool.and_eq_true, decide_eq_true_eq] at hm
    by_cases hj : j = k
    · simp only [erase, hj, if_true]
      exact rising_mono (by omega) _ (ih _ (hj ▸ hm.2))
    · simp only [erase, hj, if_false, rising, Bool.and_eq_true, decide_eq_true_eq]
      exact ⟨hm.1, ih _ hm.2⟩

theorem all_put (p : Nat × α → Bool) (m : Sparse α) (k : Nat) (v : α) (h : m.all p = true) (hv : p (k, v) = true) :
    (put m k v).all p = true := by
  induction m with
  | nil => simp [put, hv]
  | cons q r ih =>
    obtain ⟨j, w⟩ := q
    simp only [List.all_cons, Bool.and_eq_true] at h
    by_cases hj : j = k
    · simp [put, hj, hv, h.2]
    · by_cases hk : k < j
      · simp [put, hj, hk, hv, h.1, h.2]
      · simp [put, hj, hk, h.1, ih h.2]

theorem all_erase (p : Nat × α → Bool) (m : Sparse α) (k : Nat) (h : m.all p = true) : (erase m k).all p = true := by
  induction m with
  | nil => rfl
  | cons q r ih =>
    obtain ⟨j, w⟩ := q
    simp only [List.all_cons, Bool.and_eq_true] at h
    by_cases hj : j = k
    · simp [erase, hj, ih h.2]
    · simp [erase, hj, h.1, ih h.2]

/-- `set` keeps the canonical form. -/
theorem wf_set [DecidableEq α] (d : Nat → α) (m : Sparse α) (k : Nat) (v : α) (h : wf d m = true) :
    wf d (set d m k v) = true := by
  simp only [wf, Bool.and_eq_true] at h
  by_cases hv : v = d k
  · simp only [set, hv, if_true, wf, Bool.and_eq_true]
    exact ⟨rising_erase _ _ _ h.1, all_erase _ _ _ h.2⟩
  · simp only [set, hv, if_false, wf, Bool.and_eq_true]
    exact ⟨rising_put _ _ _ _ (Nat.zero_le _) h.1, all_put _ _ _ _ h.2 (by simp [hv])⟩

end Sys2Proof.Sp

namespace Sys2Proof.Memory

theorem byte_setByte (m : Memory) (a b : Nat) (v : Byte) :
    (m.setByte a v).byte b = if b = a then v else m.byte b := Sp.get_set _ m a b v

theorem wf_setByte (m : Memory) (a : Nat) (v : Byte) (h : m.wf = true) : (m.setByte a v).wf = true := Sp.wf_set _ m a v h

theorem wf_setLe (f : Nat → Nat) (n : Nat) : ∀ (m : Memory) (a v : Nat), m.wf = true → (m.setLe f a n v).wf = true := by
  induction n with
  | zero => intro m a v h; exact h
  | succ n ih => intro m a v h; exact ih _ _ _ (wf_setByte _ _ _ h)

theorem wf_setBytes (f : Nat → Nat) (l : List Byte) : ∀ (m : Memory) (a : Nat), m.wf = true → (m.setBytes f a l).wf = true := by
  induction l with
  | nil => intro m a h; exact h
  | cons v r ih => intro m a h; exact ih _ _ (wf_setByte _ _ _ h)

theorem wf_setCells (l : Cells) : ∀ m : Memory, m.wf = true → (m.setCells l).wf = true := by
  induction l with
  | nil => intro m h; exact h
  | cons p r ih => intro m h; exact ih _ (wf_setByte _ _ _ h)

/-- A byte at an address that no written byte takes reads as before. -/
theorem byte_setBytes_other (f : Nat → Nat) (b : Nat) (l : List Byte) :
    ∀ (m : Memory) (a : Nat), (∀ k, k < l.length → b ≠ f (a + k)) → (m.setBytes f a l).byte b = m.byte b := by
  induction l with
  | nil => intro m a _; rfl
  | cons v r ih =>
    intro m a h
    have h0 : b ≠ f a := h 0 (by simp)
    rw [setBytes, ih _ (a + 1) (fun k hk => by have := h (k + 1) (by simpa using hk); simpa [Nat.add_assoc, Nat.add_comm 1] using this),
      byte_setByte, if_neg h0]

/-- Bytes written below `n` leave every listed address below `n`. -/
theorem below_setBytes (n : Nat) (l : List Byte) : ∀ (m : Memory) (a : Nat), m.all (fun p => decide (p.1 < n)) = true →
    a + l.length ≤ n → (m.setBytes id a l).all (fun p => decide (p.1 < n)) = true := by
  induction l with
  | nil => intro m a h _; exact h
  | cons v r ih =>
    intro m a h hn
    have hl : a + (r.length + 1) ≤ n := hn
    refine ih _ _ ?_ (by omega)
    show (Sp.set _ m a v).all _ = true
    unfold Sp.set
    split
    · exact Sp.all_erase _ _ _ h
    · exact Sp.all_put _ _ _ _ h (by simp; omega)

end Sys2Proof.Memory
end

