-- ==== Sys2Proof/Laws/State.lean ====
section
/-! SUPPORT. What each named update of the state leaves: one lemma for each field and update, and reads after writes. -/

namespace Sys2Proof.Machine.State

variable (s : State)

@[simp] theorem setReg_pending (r : Reg) (v : W32) : (s.setReg r v).pending = s.pending := rfl
@[simp] theorem setReg_draws (r : Reg) (v : W32) : (s.setReg r v).draws = s.draws := rfl
@[simp] theorem setReg_keyDraw (r : Reg) (v : W32) : (s.setReg r v).keyDraw = s.keyDraw := rfl
@[simp] theorem setReg_departed (r : Reg) (v : W32) : (s.setReg r v).departed = s.departed := rfl
@[simp] theorem setReg_rootOn (r : Reg) (v : W32) : (s.setReg r v).rootOn = s.rootOn := rfl
@[simp] theorem setReg_benches (r : Reg) (v : W32) : (s.setReg r v).benches = s.benches := rfl
@[simp] theorem setReg_late (r : Reg) (v : W32) : (s.setReg r v).late = s.late := rfl
@[simp] theorem setReg_moulds (r : Reg) (v : W32) : (s.setReg r v).moulds = s.moulds := rfl
@[simp] theorem setReg_errq (r : Reg) (v : W32) : (s.setReg r v).errq = s.errq := rfl
@[simp] theorem setReg_heldRecs (r : Reg) (v : W32) : (s.setReg r v).heldRecs = s.heldRecs := rfl
@[simp] theorem setReg_xlat (r : Reg) (v : W32) : (s.setReg r v).xlat = s.xlat := rfl
@[simp] theorem setReg_mem (r : Reg) (v : W32) : (s.setReg r v).mem = s.mem := rfl
@[simp] theorem setReg_held (r : Reg) (v : W32) : (s.setReg r v).held = s.held := rfl
@[simp] theorem setReg_fns (r : Reg) (v : W32) : (s.setReg r v).fns = s.fns := rfl
@[simp] theorem setReg_portq (r : Reg) (v : W32) : (s.setReg r v).portq = s.portq := rfl
@[simp] theorem setReg_kernels (r : Reg) (v : W32) : (s.setReg r v).kernels = s.kernels := rfl
@[simp] theorem setReg_launchq (r : Reg) (v : W32) : (s.setReg r v).launchq = s.launchq := rfl
@[simp] theorem setReg_releases (r : Reg) (v : W32) : (s.setReg r v).releases = s.releases := rfl
@[simp] theorem setReg_rotate (r : Reg) (v : W32) : (s.setReg r v).rotate = s.rotate := rfl
@[simp] theorem setReg_shopAlt (r : Reg) (v : W32) : (s.setReg r v).shopAlt = s.shopAlt := rfl
@[simp] theorem setReg_rings (r : Reg) (v : W32) : (s.setReg r v).rings = s.rings := rfl
@[simp] theorem setReg_turn (r : Reg) (v : W32) : (s.setReg r v).turn = s.turn := rfl
@[simp] theorem setReg_belfry (r : Reg) (v : W32) : (s.setReg r v).belfry = s.belfry := rfl
@[simp] theorem setReg_carters (r : Reg) (v : W32) : (s.setReg r v).carters = s.carters := rfl
@[simp] theorem setReg_hoppers (r : Reg) (v : W32) : (s.setReg r v).hoppers = s.hoppers := rfl
@[simp] theorem setReg_dray (r : Reg) (v : W32) : (s.setReg r v).dray = s.dray := rfl
@[simp] theorem setReg_sheler (r : Reg) (v : W32) : (s.setReg r v).sheler = s.sheler := rfl
@[simp] theorem setReg_sec (r : Reg) (v : W32) : (s.setReg r v).sec = s.sec := rfl
@[simp] theorem setReg_posted (r : Reg) (v : W32) : (s.setReg r v).posted = s.posted := rfl
@[simp] theorem setReg_pouring (r : Reg) (v : W32) : (s.setReg r v).pouring = s.pouring := rfl
@[simp] theorem setReg_badMoulds (r : Reg) (v : W32) : (s.setReg r v).badMoulds = s.badMoulds := rfl
@[simp] theorem setReg_seizing (r : Reg) (v : W32) : (s.setReg r v).seizing = s.seizing := rfl
@[simp] theorem setReg_resetting (r : Reg) (v : W32) : (s.setReg r v).resetting = s.resetting := rfl
@[simp] theorem setReg_out (r : Reg) (v : W32) : (s.setReg r v).out = s.out := rfl

@[simp] theorem setBench_pending (b : BenchId) (x : Bench) : (s.setBench b x).pending = s.pending := rfl
@[simp] theorem setBench_draws (b : BenchId) (x : Bench) : (s.setBench b x).draws = s.draws := rfl
@[simp] theorem setBench_keyDraw (b : BenchId) (x : Bench) : (s.setBench b x).keyDraw = s.keyDraw := rfl
@[simp] theorem setBench_departed (b : BenchId) (x : Bench) : (s.setBench b x).departed = s.departed := rfl
@[simp] theorem setBench_rootOn (b : BenchId) (x : Bench) : (s.setBench b x).rootOn = s.rootOn := rfl
@[simp] theorem setBench_late (b : BenchId) (x : Bench) : (s.setBench b x).late = s.late := rfl
@[simp] theorem setBench_regs (b : BenchId) (x : Bench) : (s.setBench b x).regs = s.regs := rfl
@[simp] theorem setBench_moulds (b : BenchId) (x : Bench) : (s.setBench b x).moulds = s.moulds := rfl
@[simp] theorem setBench_errq (b : BenchId) (x : Bench) : (s.setBench b x).errq = s.errq := rfl
@[simp] theorem setBench_heldRecs (b : BenchId) (x : Bench) : (s.setBench b x).heldRecs = s.heldRecs := rfl
@[simp] theorem setBench_xlat (b : BenchId) (x : Bench) : (s.setBench b x).xlat = s.xlat := rfl
@[simp] theorem setBench_mem (b : BenchId) (x : Bench) : (s.setBench b x).mem = s.mem := rfl
@[simp] theorem setBench_held (b : BenchId) (x : Bench) : (s.setBench b x).held = s.held := rfl
@[simp] theorem setBench_fns (b : BenchId) (x : Bench) : (s.setBench b x).fns = s.fns := rfl
@[simp] theorem setBench_portq (b : BenchId) (x : Bench) : (s.setBench b x).portq = s.portq := rfl
@[simp] theorem setBench_kernels (b : BenchId) (x : Bench) : (s.setBench b x).kernels = s.kernels := rfl
@[simp] theorem setBench_launchq (b : BenchId) (x : Bench) : (s.setBench b x).launchq = s.launchq := rfl
@[simp] theorem setBench_releases (b : BenchId) (x : Bench) : (s.setBench b x).releases = s.releases := rfl
@[simp] theorem setBench_rotate (b : BenchId) (x : Bench) : (s.setBench b x).rotate = s.rotate := rfl
@[simp] theorem setBench_shopAlt (b : BenchId) (x : Bench) : (s.setBench b x).shopAlt = s.shopAlt := rfl
@[simp] theorem setBench_rings (b : BenchId) (x : Bench) : (s.setBench b x).rings = s.rings := rfl
@[simp] theorem setBench_turn (b : BenchId) (x : Bench) : (s.setBench b x).turn = s.turn := rfl
@[simp] theorem setBench_belfry (b : BenchId) (x : Bench) : (s.setBench b x).belfry = s.belfry := rfl
@[simp] theorem setBench_carters (b : BenchId) (x : Bench) : (s.setBench b x).carters = s.carters := rfl
@[simp] theorem setBench_hoppers (b : BenchId) (x : Bench) : (s.setBench b x).hoppers = s.hoppers := rfl
@[simp] theorem setBench_dray (b : BenchId) (x : Bench) : (s.setBench b x).dray = s.dray := rfl
@[simp] theorem setBench_sheler (b : BenchId) (x : Bench) : (s.setBench b x).sheler = s.sheler := rfl
@[simp] theorem setBench_sec (b : BenchId) (x : Bench) : (s.setBench b x).sec = s.sec := rfl
@[simp] theorem setBench_posted (b : BenchId) (x : Bench) : (s.setBench b x).posted = s.posted := rfl
@[simp] theorem setBench_pouring (b : BenchId) (x : Bench) : (s.setBench b x).pouring = s.pouring := rfl
@[simp] theorem setBench_badMoulds (b : BenchId) (x : Bench) : (s.setBench b x).badMoulds = s.badMoulds := rfl
@[simp] theorem setBench_seizing (b : BenchId) (x : Bench) : (s.setBench b x).seizing = s.seizing := rfl
@[simp] theorem setBench_resetting (b : BenchId) (x : Bench) : (s.setBench b x).resetting = s.resetting := rfl
@[simp] theorem setBench_out (b : BenchId) (x : Bench) : (s.setBench b x).out = s.out := rfl

@[simp] theorem drawn_pending : (s.drawn).pending = s.pending := rfl
@[simp] theorem drawn_keyDraw : (s.drawn).keyDraw = s.keyDraw := rfl
@[simp] theorem drawn_departed : (s.drawn).departed = s.departed := rfl
@[simp] theorem drawn_rootOn : (s.drawn).rootOn = s.rootOn := rfl
@[simp] theorem drawn_benches : (s.drawn).benches = s.benches := rfl
@[simp] theorem drawn_late : (s.drawn).late = s.late := rfl
@[simp] theorem drawn_regs : (s.drawn).regs = s.regs := rfl
@[simp] theorem drawn_moulds : (s.drawn).moulds = s.moulds := rfl
@[simp] theorem drawn_errq : (s.drawn).errq = s.errq := rfl
@[simp] theorem drawn_heldRecs : (s.drawn).heldRecs = s.heldRecs := rfl
@[simp] theorem drawn_xlat : (s.drawn).xlat = s.xlat := rfl
@[simp] theorem drawn_mem : (s.drawn).mem = s.mem := rfl
@[simp] theorem drawn_held : (s.drawn).held = s.held := rfl
@[simp] theorem drawn_fns : (s.drawn).fns = s.fns := rfl
@[simp] theorem drawn_portq : (s.drawn).portq = s.portq := rfl
@[simp] theorem drawn_kernels : (s.drawn).kernels = s.kernels := rfl
@[simp] theorem drawn_launchq : (s.drawn).launchq = s.launchq := rfl
@[simp] theorem drawn_releases : (s.drawn).releases = s.releases := rfl
@[simp] theorem drawn_rotate : (s.drawn).rotate = s.rotate := rfl
@[simp] theorem drawn_shopAlt : (s.drawn).shopAlt = s.shopAlt := rfl
@[simp] theorem drawn_rings : (s.drawn).rings = s.rings := rfl
@[simp] theorem drawn_turn : (s.drawn).turn = s.turn := rfl
@[simp] theorem drawn_belfry : (s.drawn).belfry = s.belfry := rfl
@[simp] theorem drawn_carters : (s.drawn).carters = s.carters := rfl
@[simp] theorem drawn_hoppers : (s.drawn).hoppers = s.hoppers := rfl
@[simp] theorem drawn_dray : (s.drawn).dray = s.dray := rfl
@[simp] theorem drawn_sheler : (s.drawn).sheler = s.sheler := rfl
@[simp] theorem drawn_sec : (s.drawn).sec = s.sec := rfl
@[simp] theorem drawn_posted : (s.drawn).posted = s.posted := rfl
@[simp] theorem drawn_pouring : (s.drawn).pouring = s.pouring := rfl
@[simp] theorem drawn_badMoulds : (s.drawn).badMoulds = s.badMoulds := rfl
@[simp] theorem drawn_seizing : (s.drawn).seizing = s.seizing := rfl
@[simp] theorem drawn_resetting : (s.drawn).resetting = s.resetting := rfl
@[simp] theorem drawn_out : (s.drawn).out = s.out := rfl

@[simp] theorem setReg_bench (r : Reg) (v : W32) (b : BenchId) : (s.setReg r v).bench b = s.bench b := rfl
@[simp] theorem setBench_reg (b : BenchId) (x : Bench) (r : Reg) : (s.setBench b x).reg r = s.reg r := rfl
@[simp] theorem drawn_reg (r : Reg) : s.drawn.reg r = s.reg r := rfl
@[simp] theorem drawn_bench (b : BenchId) : s.drawn.bench b = s.bench b := rfl

/-- A register reads as last written (at its own offset). -/
@[simp] theorem reg_setReg_same (r : Reg) (v : W32) : (s.setReg r v).reg r = v := Sp.get_put_same _ _ _ _

theorem reg_setReg_other (r q : Reg) (v : W32) (h : q.off ≠ r.off) : (s.setReg r v).reg q = s.reg q := Sp.get_put_other _ _ _ h

/-- A bench reads as last replaced. -/
@[simp] theorem bench_setBench_same (b : BenchId) (x : Bench) : (s.setBench b x).bench b = x := Sp.get_put_same _ _ _ _

theorem bench_setBench_other (b q : BenchId) (x : Bench) (h : q ≠ b) : (s.setBench b x).bench q = s.bench q :=
  Sp.get_put_other _ _ _ fun e => h (Fin.ext e)

/-- Only the last replacement of a bench counts. -/
@[simp] theorem setBench_setBench (b : BenchId) (x y : Bench) : (s.setBench b x).setBench b y = s.setBench b y := by
  simp [setBench, Sp.put_put]

@[simp] theorem fld_setBench (b : BenchId) (x : Bench) (k : RegKind) (u hi lo : Nat) :
    (s.setBench b x).fld k u hi lo = s.fld k u hi lo := rfl

@[simp] theorem bench_updBench_same (b : BenchId) (f : Bench → Bench) : (s.updBench b f).bench b = f (s.bench b) :=
  bench_setBench_same s b _

@[simp] theorem bench_updCore_same (b : BenchId) (f : Core → Core) :
    (s.updCore b f).bench b = { s.bench b with core := f (s.bench b).core } := bench_setBench_same s b _

end Sys2Proof.Machine.State

namespace Sys2Proof.Machine.Core

/-- A scalar register reads as last written; s0 keeps reading 0 (02 R46). -/
theorem rd_wr (c : Core) (r q : R5) (v : W64) : (c.wr r v).rd q = if q = r ∧ q ≠ 0 then v else c.rd q := by
  by_cases hr : r = 0
  · subst hr
    by_cases hq : q = 0 <;> simp [wr, hq]
  · by_cases hq : q = 0
    · subst hq; simp [rd]
    · simp only [wr, rd, hr, hq, if_false, Sp.get_set, ne_eq, not_false_eq_true, and_true]
      by_cases h : q = r
      · simp [h]
      · have : q.toNat ≠ r.toNat := fun e => h (BitVec.eq_of_toNat_eq e)
        simp [h, this]

@[simp] theorem wr_flags (c : Core) (r : R5) (v : W64) : (c.wr r v).flags = c.flags := by unfold wr; split <;> rfl
@[simp] theorem wr_loops (c : Core) (r : R5) (v : W64) : (c.wr r v).loops = c.loops := by unfold wr; split <;> rfl
@[simp] theorem wr_pc (c : Core) (r : R5) (v : W64) : (c.wr r v).pc = c.pc := by unfold wr; split <;> rfl
@[simp] theorem wr_cycle (c : Core) (r : R5) (v : W64) : (c.wr r v).cycle = c.cycle := by unfold wr; split <;> rfl

end Sys2Proof.Machine.Core
end

