-- ==== Sys2Proof/Laws/Issue.lean ====
section
/-! SUPPORT. What `issue` does under the conditions that the claims name: it runs the body, or completes as a no-op. -/

namespace Sys2Proof.Machine

open Sys2Proof.Claims

/-- Words without error, in the store and in the lookahead buffer, are fetched and change nothing (02 R60). -/
theorem fetchCheck_clean (s : State) (b : BenchId) : ∀ l : List (BitVec 16),
    (∀ a ∈ l, Sp.find (s.bench b).psErr a.toNat = none ∧ ∀ e ∈ (s.bench b).core.lookahead, e.addr = a → e.bad = false) →
      s.fetchCheck b l = (s, true)
  | [], _ => rfl
  | a :: r, h => by
    obtain ⟨h1, h2⟩ := h a (by simp)
    have ih := fetchCheck_clean s b r fun c hc => h c (by simp [hc])
    have hf : s.psFetch b a = (s, ⟨a, (s.bench b).psWord a, false⟩) := by simp only [State.psFetch, h1]
    simp only [State.fetchCheck]
    split
    · cases hl : (s.bench b).core.lookahead.find? fun e => decide (e.addr = a) with
      | none => simp [hf, ih]
      | some e =>
        have ha : e.addr = a := by simpa using List.find?_some hl
        simp [h2 e (List.mem_of_find?_eq_some hl) ha, ih]
    · simp [hf, ih]

/-- Where no word of the store carries a single-bit error, the lookahead buffer fills without a trace (02 R60, R64). -/
theorem lookAlong_clean (b : BenchId) (s : State) (h : ∀ e ∈ (s.bench b).psErr, e.2 = .double) :
    ∀ (path : List (BitVec 16)) (n : Nat), (s.lookAlong b n path).1 = s
  | [], _ => rfl
  | a :: r, n => by
    have hf : (s.psFetch b a).1 = s := by
      simp only [State.psFetch]
      split
      · rfl
      · rename_i hs
        have hm : ∀ l : Sparse PsMark, Sp.find l a.toNat = some .single → ∃ e ∈ l, e.2 = .single := by
          intro l
          induction l with
          | nil => intro h; cases h
          | cons x l ih =>
            intro hx
            simp only [Sp.find] at hx
            split at hx
            · exact ⟨x, by simp, by simpa using hx⟩
            · obtain ⟨e, he, hv⟩ := ih hx
              exact ⟨e, by simp [he], hv⟩
        obtain ⟨e, he, hv⟩ := hm _ hs
        rw [h e he] at hv
        cases hv
      · rfl
    simp only [State.lookAlong]
    split
    · exact lookAlong_clean b s h r n
    · split
      · rfl
      · rename_i k
        have := lookAlong_clean b s h r k
        rw [← hf] at this
        simpa [hf] using this

/-- What clean words say of each. -/
theorem cleanWords_at {x : Bench} {n : Nat} (h : cleanWords x n = true) (k : Nat) (hk : k < n) :
    Sp.find x.psErr (x.core.pc + BitVec.ofNat 16 k).toNat = none
      ∧ ∀ e ∈ x.core.lookahead, e.addr = x.core.pc + BitVec.ofNat 16 k → e.bad = false := by
  simp only [cleanWords, Bool.and_eq_true, List.all_eq_true, List.mem_range, Option.isNone_iff_eq_none] at h
  obtain ⟨h1, h2⟩ := h.1 k hk
  refine ⟨h1, fun e he ha => ?_⟩
  have := h2 e he
  simpa [ha] using this

/-- The breakpoint test of `issue` passes. -/
theorem noBreak_of (s : State) (b : BenchId) (p : BitVec 16)
    (h : ((s.bench b).core.bsk || (s.breakpoint b p).isNone) = true) :
    (if (s.bench b).core.bsk = true then none else s.breakpoint b p) = none := by
  cases hb : (s.bench b).core.bsk <;> simp_all

/-- A ready instruction of one or two words, with no illegal or reserved field, runs its body. -/
theorem issue_ready (b : BenchId) (f : Form) (body : State → Body) (s : State)
    (h : ready s b (f.word.extractLsb' 32 4) (if f.long then 2 else 1) f.regs = true)
    (hi : f.illegal = false) (hr : f.reserved = false) :
    issue b f body s = s.finish b f (body s) := by
  simp only [ready, Bool.and_eq_true] at h
  obtain ⟨⟨⟨⟨⟨hd, hc⟩, hw⟩, hb⟩, ht⟩, hp⟩ := h
  have hwords : s.fetchCheck b
      (if (f.long && true) = true then [(s.bench b).core.pc, (s.bench b).core.pc + 1] else [(s.bench b).core.pc]) = (s, true) := by
    apply fetchCheck_clean
    intro a ha
    cases hl : f.long with
    | true =>
      rw [hl] at hw
      simp only [hl, Bool.true_and, if_true, List.mem_cons, List.not_mem_nil, or_false] at ha
      rcases ha with rfl | rfl
      · simpa using cleanWords_at hw 0 (by simp)
      · simpa using cleanWords_at hw 1 (by simp)
    | false =>
      rw [hl] at hw
      simp only [hl, Bool.false_and, Bool.false_eq_true, if_false, List.mem_singleton] at ha
      subst ha
      simpa using cleanWords_at hw 0 (by simp)
  have hfind : f.regs.find? (fun r => decide (r ≠ 0 ∧ (s.bench b).core.pendingScalar.contains r = true)) = none := by
    rw [List.find?_eq_none]
    intro r hr'
    have := (List.all_eq_true.mp hp) r hr'
    simp at this ⊢
    intro h0
    rcases this with h1 | h1
    · exact absurd h1 h0
    · simpa using h1
  unfold issue
  rw [if_neg (by simp [hc])]
  simp only [ht, hwords, noBreak_of s b _ hb, hi, hr, hfind]
  simp

/-- An instruction whose condition is false completes as a no-op (02 R43). -/
theorem issue_false (b : BenchId) (f : Form) (body : State → Body) (s : State)
    (h : unready s b (f.word.extractLsb' 32 4) = true) :
    issue b f body s = s.finish b f (.done s 1 (f.long || f.guessed)) := by
  simp only [unready, Bool.and_eq_true] at h
  obtain ⟨⟨⟨⟨hd, hc⟩, hw⟩, hb⟩, ht⟩ := h
  have ht' : (s.bench b).core.flags.holds (f.word.extractLsb' 32 4) = false := by simpa using ht
  have hwords : s.fetchCheck b [(s.bench b).core.pc] = (s, true) := by
    apply fetchCheck_clean
    intro a ha
    simp only [List.mem_singleton] at ha
    subst ha
    simpa using cleanWords_at hw 0 (by simp)
  unfold issue
  rw [if_neg (by simp [hc])]
  simp only [ht', Bool.and_false, Bool.false_eq_true, if_false, hwords, noBreak_of s b _ hb]
  simp

end Sys2Proof.Machine
end

