-- ==== Sys2Proof/Laws/Words.lean ====
section
/-! SUPPORT. A word keeps every field of its format, and its opcode (02 R45): reading back what the format writes gives it again. -/

namespace Sys2Proof.Laws

theorem extract_high {a b : Nat} (x : BitVec a) (y : BitVec b) (s n : Nat) (h : b ≤ s) :
    (x ++ y).extractLsb' s n = x.extractLsb' (s - b) n := by
  ext i hi
  have h1 : ¬ s + i < b := by omega
  have h2 : s + i - b = s - b + i := by omega
  simp [BitVec.getLsbD_append, h1, h2]

theorem extract_low {a b : Nat} (x : BitVec a) (y : BitVec b) (s n : Nat) (h : s + n ≤ b) :
    (x ++ y).extractLsb' s n = y.extractLsb' s n := by
  ext i hi
  have h1 : s + i < b := by omega
  simp [BitVec.getLsbD_append, h1]

theorem extract_self {a : Nat} {x : BitVec a} : x.extractLsb' 0 a = x := BitVec.extractLsb'_eq_self

theorem FmtR_word (f : FmtR) (opc : BitVec 8) (fn : BitVec 8) :
    FmtR.ofWord (f.word opc fn) = f ∧ (f.word opc fn).extractLsb' 24 8 = opc ∧ (f.word opc fn).extractLsb' 0 8 = fn := by
  cases f
  rw [FmtR.mk.injEq]
  refine ⟨⟨?_, ?_, ?_, ?_, ?_⟩, ?_, ?_⟩ <;> repeat first
    | exact extract_self
    | rfl
    | refine (extract_low _ _ _ _ (by decide)).trans ?_
    | refine (extract_high _ _ _ _ (by decide)).trans ?_

theorem FmtI_word (f : FmtI) (opc : BitVec 8) :
    FmtI.ofWord (f.word opc) = f ∧ (f.word opc).extractLsb' 24 8 = opc := by
  cases f
  rw [FmtI.mk.injEq]
  refine ⟨⟨?_, ?_, ?_, ?_, ?_⟩, ?_⟩ <;> repeat first
    | exact extract_self
    | rfl
    | refine (extract_low _ _ _ _ (by decide)).trans ?_
    | refine (extract_high _ _ _ _ (by decide)).trans ?_

theorem FmtSH_word (f : FmtSH) (opc : BitVec 8) :
    FmtSH.ofWord (f.word opc) = f ∧ (f.word opc).extractLsb' 24 8 = opc := by
  cases f
  rw [FmtSH.mk.injEq]
  refine ⟨⟨?_, ?_, ?_, ?_, ?_, ?_, ?_⟩, ?_⟩ <;> repeat first
    | exact extract_self
    | rfl
    | refine (extract_low _ _ _ _ (by decide)).trans ?_
    | refine (extract_high _ _ _ _ (by decide)).trans ?_

theorem FmtX_word (f : FmtX) (opc : BitVec 8) :
    FmtX.ofWord (f.word opc) f.imm = f ∧ (f.word opc).extractLsb' 24 8 = opc := by
  cases f
  rw [FmtX.mk.injEq]
  refine ⟨⟨?_, ?_, ?_, ?_, ?_, ?_⟩, ?_⟩ <;> repeat first
    | exact extract_self
    | rfl
    | refine (extract_low _ _ _ _ (by decide)).trans ?_
    | refine (extract_high _ _ _ _ (by decide)).trans ?_

theorem FmtP_word (f : FmtP) (opc : BitVec 8) :
    FmtP.ofWord (f.word opc) = f ∧ (f.word opc).extractLsb' 24 8 = opc := by
  cases f
  rw [FmtP.mk.injEq]
  refine ⟨⟨?_, ?_, ?_, ?_, ?_, ?_⟩, ?_⟩ <;> repeat first
    | exact extract_self
    | rfl
    | refine (extract_low _ _ _ _ (by decide)).trans ?_
    | refine (extract_high _ _ _ _ (by decide)).trans ?_

theorem FmtM_word (f : FmtM) (opc : BitVec 8) :
    FmtM.ofWord (f.word opc) = f ∧ (f.word opc).extractLsb' 24 8 = opc := by
  cases f
  rw [FmtM.mk.injEq]
  refine ⟨⟨?_, ?_, ?_, ?_, ?_, ?_⟩, ?_⟩ <;> repeat first
    | exact extract_self
    | rfl
    | refine (extract_low _ _ _ _ (by decide)).trans ?_
    | refine (extract_high _ _ _ _ (by decide)).trans ?_

theorem FmtS_word (f : FmtS) (opc : BitVec 8) :
    FmtS.ofWord (f.word opc) = f ∧ (f.word opc).extractLsb' 24 8 = opc := by
  cases f
  rw [FmtS.mk.injEq]
  refine ⟨⟨?_, ?_, ?_, ?_⟩, ?_⟩ <;> repeat first
    | exact extract_self
    | rfl
    | refine (extract_low _ _ _ _ (by decide)).trans ?_
    | refine (extract_high _ _ _ _ (by decide)).trans ?_

theorem FmtN_word (f : FmtN) (opc : BitVec 8) :
    FmtN.ofWord (f.word opc) = f ∧ (f.word opc).extractLsb' 24 8 = opc := by
  cases f
  rw [FmtN.mk.injEq]
  refine ⟨⟨?_, ?_⟩, ?_⟩ <;> repeat first
    | exact extract_self
    | rfl
    | refine (extract_low _ _ _ _ (by decide)).trans ?_
    | refine (extract_high _ _ _ _ (by decide)).trans ?_

theorem FmtB_word (f : FmtB) (opc : BitVec 8) :
    FmtB.ofWord (f.word opc) = f ∧ (f.word opc).extractLsb' 24 8 = opc := by
  cases f
  rw [FmtB.mk.injEq]
  refine ⟨⟨?_, ?_, ?_, ?_⟩, ?_⟩ <;> repeat first
    | exact extract_self
    | rfl
    | refine (extract_low _ _ _ _ (by decide)).trans ?_
    | refine (extract_high _ _ _ _ (by decide)).trans ?_

theorem FmtJ_word (f : FmtJ) (opc : BitVec 8) :
    FmtJ.ofWord (f.word opc) = f ∧ (f.word opc).extractLsb' 24 8 = opc := by
  cases f
  rw [FmtJ.mk.injEq]
  refine ⟨⟨?_, ?_, ?_, ?_⟩, ?_⟩ <;> repeat first
    | exact extract_self
    | rfl
    | refine (extract_low _ _ _ _ (by decide)).trans ?_
    | refine (extract_high _ _ _ _ (by decide)).trans ?_

theorem FmtL_word (f : FmtL) (opc : BitVec 8) :
    FmtL.ofWord (f.word opc) = f ∧ (f.word opc).extractLsb' 24 8 = opc := by
  cases f
  rw [FmtL.mk.injEq]
  refine ⟨⟨?_, ?_, ?_, ?_, ?_⟩, ?_⟩ <;> repeat first
    | exact extract_self
    | rfl
    | refine (extract_low _ _ _ _ (by decide)).trans ?_
    | refine (extract_high _ _ _ _ (by decide)).trans ?_

theorem FmtLI_word (f : FmtLI) (opc : BitVec 8) :
    FmtLI.ofWord (f.word opc) = f ∧ (f.word opc).extractLsb' 24 8 = opc := by
  cases f
  rw [FmtLI.mk.injEq]
  refine ⟨⟨?_, ?_, ?_⟩, ?_⟩ <;> repeat first
    | exact extract_self
    | rfl
    | refine (extract_low _ _ _ _ (by decide)).trans ?_
    | refine (extract_high _ _ _ _ (by decide)).trans ?_

theorem FmtLP_word (f : FmtLP) (opc : BitVec 8) :
    FmtLP.ofWord (f.word opc) = f ∧ (f.word opc).extractLsb' 24 8 = opc := by
  cases f
  rw [FmtLP.mk.injEq]
  refine ⟨⟨?_, ?_, ?_⟩, ?_⟩ <;> repeat first
    | exact extract_self
    | rfl
    | refine (extract_low _ _ _ _ (by decide)).trans ?_
    | refine (extract_high _ _ _ _ (by decide)).trans ?_

theorem FmtC_word (f : FmtC) (opc : BitVec 8) :
    FmtC.ofWord (f.word opc) = f ∧ (f.word opc).extractLsb' 24 8 = opc := by
  cases f
  rw [FmtC.mk.injEq]
  refine ⟨⟨?_, ?_, ?_, ?_⟩, ?_⟩ <;> repeat first
    | exact extract_self
    | rfl
    | refine (extract_low _ _ _ _ (by decide)).trans ?_
    | refine (extract_high _ _ _ _ (by decide)).trans ?_

theorem FmtTrap_word (f : FmtTrap) (opc : BitVec 8) :
    FmtTrap.ofWord (f.word opc) = f ∧ (f.word opc).extractLsb' 24 8 = opc := by
  cases f
  rw [FmtTrap.mk.injEq]
  refine ⟨⟨?_, ?_, ?_, ?_⟩, ?_⟩ <;> repeat first
    | exact extract_self
    | rfl
    | refine (extract_low _ _ _ _ (by decide)).trans ?_
    | refine (extract_high _ _ _ _ (by decide)).trans ?_

theorem FmtRetx_word (f : FmtRetx) (opc : BitVec 8) :
    FmtRetx.ofWord (f.word opc) = f ∧ (f.word opc).extractLsb' 24 8 = opc := by
  cases f
  rw [FmtRetx.mk.injEq]
  refine ⟨⟨?_, ?_, ?_⟩, ?_⟩ <;> repeat first
    | exact extract_self
    | rfl
    | refine (extract_low _ _ _ _ (by decide)).trans ?_
    | refine (extract_high _ _ _ _ (by decide)).trans ?_

theorem FmtReseal_word (f : FmtReseal) (opc : BitVec 8) :
    FmtReseal.ofWord (f.word opc) = f ∧ (f.word opc).extractLsb' 24 8 = opc := by
  cases f
  rw [FmtReseal.mk.injEq]
  refine ⟨⟨?_, ?_, ?_, ?_⟩, ?_⟩ <;> repeat first
    | exact extract_self
    | rfl
    | refine (extract_low _ _ _ _ (by decide)).trans ?_
    | refine (extract_high _ _ _ _ (by decide)).trans ?_

theorem FmtVS_word (f : FmtVS) (opc : BitVec 8) :
    FmtVS.ofWord (f.word opc) = f ∧ (f.word opc).extractLsb' 24 8 = opc := by
  cases f
  rw [FmtVS.mk.injEq]
  refine ⟨⟨?_, ?_, ?_, ?_, ?_, ?_, ?_⟩, ?_⟩ <;> repeat first
    | exact extract_self
    | rfl
    | refine (extract_low _ _ _ _ (by decide)).trans ?_
    | refine (extract_high _ _ _ _ (by decide)).trans ?_

theorem FmtVC_word (f : FmtVC) (opc : BitVec 8) :
    FmtVC.ofWord (f.word opc) = f ∧ (f.word opc).extractLsb' 24 8 = opc := by
  cases f
  rw [FmtVC.mk.injEq]
  refine ⟨⟨?_, ?_, ?_, ?_, ?_, ?_⟩, ?_⟩ <;> repeat first
    | exact extract_self
    | rfl
    | refine (extract_low _ _ _ _ (by decide)).trans ?_
    | refine (extract_high _ _ _ _ (by decide)).trans ?_

theorem FmtVV_word (f : FmtVV) (opc : BitVec 8) (fn : BitVec 3) :
    FmtVV.ofWord (f.word opc fn) = f ∧ (f.word opc fn).extractLsb' 24 8 = opc ∧ (f.word opc fn).extractLsb' 0 3 = fn := by
  cases f
  rw [FmtVV.mk.injEq]
  refine ⟨⟨?_, ?_, ?_, ?_, ?_, ?_, ?_⟩, ?_, ?_⟩ <;> repeat first
    | exact extract_self
    | rfl
    | refine (extract_low _ _ _ _ (by decide)).trans ?_
    | refine (extract_high _ _ _ _ (by decide)).trans ?_

theorem FmtVM_word (f : FmtVM) (opc : BitVec 8) :
    FmtVM.ofWord (f.word opc) = f ∧ (f.word opc).extractLsb' 24 8 = opc := by
  cases f
  rw [FmtVM.mk.injEq]
  refine ⟨⟨?_, ?_, ?_, ?_, ?_, ?_, ?_, ?_, ?_⟩, ?_⟩ <;> repeat first
    | exact extract_self
    | rfl
    | refine (extract_low _ _ _ _ (by decide)).trans ?_
    | refine (extract_high _ _ _ _ (by decide)).trans ?_

theorem FmtVX_word (f : FmtVX) (opc : BitVec 8) :
    FmtVX.ofWord (f.word opc) = f ∧ (f.word opc).extractLsb' 24 8 = opc := by
  cases f
  rw [FmtVX.mk.injEq]
  refine ⟨⟨?_, ?_, ?_, ?_, ?_, ?_, ?_, ?_, ?_⟩, ?_⟩ <;> repeat first
    | exact extract_self
    | rfl
    | refine (extract_low _ _ _ _ (by decide)).trans ?_
    | refine (extract_high _ _ _ _ (by decide)).trans ?_

theorem FmtVT_word (f : FmtVT) (opc : BitVec 8) :
    FmtVT.ofWord (f.word opc) = f ∧ (f.word opc).extractLsb' 24 8 = opc := by
  cases f
  rw [FmtVT.mk.injEq]
  refine ⟨⟨?_, ?_, ?_, ?_, ?_, ?_, ?_⟩, ?_⟩ <;> repeat first
    | exact extract_self
    | rfl
    | refine (extract_low _ _ _ _ (by decide)).trans ?_
    | refine (extract_high _ _ _ _ (by decide)).trans ?_

theorem FmtF_word (f : FmtF) (opc : BitVec 8) :
    FmtF.ofWord (f.word opc) = f ∧ (f.word opc).extractLsb' 24 8 = opc := by
  cases f
  rw [FmtF.mk.injEq]
  refine ⟨⟨?_, ?_, ?_, ?_, ?_, ?_, ?_, ?_, ?_⟩, ?_⟩ <;> repeat first
    | exact extract_self
    | rfl
    | refine (extract_low _ _ _ _ (by decide)).trans ?_
    | refine (extract_high _ _ _ _ (by decide)).trans ?_

theorem FmtG_word (f : FmtG) (opc : BitVec 8) :
    FmtG.ofWord (f.word opc) = f ∧ (f.word opc).extractLsb' 24 8 = opc := by
  cases f
  rw [FmtG.mk.injEq]
  refine ⟨⟨?_, ?_, ?_, ?_, ?_, ?_, ?_, ?_⟩, ?_⟩ <;> repeat first
    | exact extract_self
    | rfl
    | refine (extract_low _ _ _ _ (by decide)).trans ?_
    | refine (extract_high _ _ _ _ (by decide)).trans ?_

theorem FmtPL_word (f : FmtPL) (opc : BitVec 8) :
    FmtPL.ofWord (f.word opc) = f ∧ (f.word opc).extractLsb' 24 8 = opc := by
  cases f
  rw [FmtPL.mk.injEq]
  refine ⟨⟨?_, ?_, ?_, ?_, ?_, ?_⟩, ?_⟩ <;> repeat first
    | exact extract_self
    | rfl
    | refine (extract_low _ _ _ _ (by decide)).trans ?_
    | refine (extract_high _ _ _ _ (by decide)).trans ?_

theorem FmtTS_word (f : FmtTS) (opc : BitVec 8) :
    FmtTS.ofWord (f.word opc) = f ∧ (f.word opc).extractLsb' 24 8 = opc := by
  cases f
  rw [FmtTS.mk.injEq]
  refine ⟨⟨?_, ?_, ?_, ?_⟩, ?_⟩ <;> repeat first
    | exact extract_self
    | rfl
    | refine (extract_low _ _ _ _ (by decide)).trans ?_
    | refine (extract_high _ _ _ _ (by decide)).trans ?_

theorem FmtSeed_word (f : FmtSeed) (opc : BitVec 8) :
    FmtSeed.ofWord (f.word opc) = f ∧ (f.word opc).extractLsb' 24 8 = opc := by
  cases f
  rw [FmtSeed.mk.injEq]
  refine ⟨⟨?_, ?_, ?_, ?_⟩, ?_⟩ <;> repeat first
    | exact extract_self
    | rfl
    | refine (extract_low _ _ _ _ (by decide)).trans ?_
    | refine (extract_high _ _ _ _ (by decide)).trans ?_

theorem FmtD_word (f : FmtD) (opc : BitVec 8) :
    FmtD.ofWord (f.word opc) = f ∧ (f.word opc).extractLsb' 24 8 = opc := by
  cases f
  rw [FmtD.mk.injEq]
  refine ⟨⟨?_, ?_, ?_, ?_, ?_, ?_, ?_⟩, ?_⟩ <;> repeat first
    | exact extract_self
    | rfl
    | refine (extract_low _ _ _ _ (by decide)).trans ?_
    | refine (extract_high _ _ _ _ (by decide)).trans ?_

theorem FmtFence_word (f : FmtFence) (opc : BitVec 8) (scope : BitVec 3) :
    FmtFence.ofWord (f.word opc scope) = f ∧ (f.word opc scope).extractLsb' 24 8 = opc ∧ (f.word opc scope).extractLsb' 21 3 = scope := by
  cases f
  rw [FmtFence.mk.injEq]
  refine ⟨⟨?_, ?_, ?_, ?_⟩, ?_, ?_⟩ <;> repeat first
    | exact extract_self
    | rfl
    | refine (extract_low _ _ _ _ (by decide)).trans ?_
    | refine (extract_high _ _ _ _ (by decide)).trans ?_

theorem FmtCinv_word (f : FmtCinv) (opc : BitVec 8) :
    FmtCinv.ofWord (f.word opc) = f ∧ (f.word opc).extractLsb' 24 8 = opc := by
  cases f
  rw [FmtCinv.mk.injEq]
  refine ⟨⟨?_, ?_, ?_, ?_, ?_, ?_⟩, ?_⟩ <;> repeat first
    | exact extract_self
    | rfl
    | refine (extract_low _ _ _ _ (by decide)).trans ?_
    | refine (extract_high _ _ _ _ (by decide)).trans ?_

theorem FmtAtom_word (f : FmtAtom) (opc : BitVec 8) (aop : BitVec 4) :
    FmtAtom.ofWord (f.word opc aop) = f ∧ (f.word opc aop).extractLsb' 24 8 = opc ∧ (f.word opc aop).extractLsb' 5 4 = aop := by
  cases f
  rw [FmtAtom.mk.injEq]
  refine ⟨⟨?_, ?_, ?_, ?_, ?_, ?_, ?_⟩, ?_, ?_⟩ <;> repeat first
    | exact extract_self
    | rfl
    | refine (extract_low _ _ _ _ (by decide)).trans ?_
    | refine (extract_high _ _ _ _ (by decide)).trans ?_

theorem FmtRing_word (f : FmtRing) (opc : BitVec 8) (op : BitVec 2) :
    FmtRing.ofWord (f.word opc op) = f ∧ (f.word opc op).extractLsb' 24 8 = opc ∧ (f.word opc op).extractLsb' 19 2 = op := by
  cases f
  rw [FmtRing.mk.injEq]
  refine ⟨⟨?_, ?_, ?_, ?_, ?_⟩, ?_, ?_⟩ <;> repeat first
    | exact extract_self
    | rfl
    | refine (extract_low _ _ _ _ (by decide)).trans ?_
    | refine (extract_high _ _ _ _ (by decide)).trans ?_

theorem FmtWait_word (f : FmtWait) (opc : BitVec 8) (async : BitVec 1) :
    FmtWait.ofWord (f.word opc async) = f ∧ (f.word opc async).extractLsb' 24 8 = opc ∧ (f.word opc async).extractLsb' 20 1 = async := by
  cases f
  rw [FmtWait.mk.injEq]
  refine ⟨⟨?_, ?_, ?_, ?_, ?_, ?_⟩, ?_, ?_⟩ <;> repeat first
    | exact extract_self
    | rfl
    | refine (extract_low _ _ _ _ (by decide)).trans ?_
    | refine (extract_high _ _ _ _ (by decide)).trans ?_

theorem FmtPeal_word (f : FmtPeal) (opc : BitVec 8) :
    FmtPeal.ofWord (f.word opc) = f ∧ (f.word opc).extractLsb' 24 8 = opc := by
  cases f
  rw [FmtPeal.mk.injEq]
  refine ⟨⟨?_, ?_, ?_, ?_, ?_, ?_, ?_⟩, ?_⟩ <;> repeat first
    | exact extract_self
    | rfl
    | refine (extract_low _ _ _ _ (by decide)).trans ?_
    | refine (extract_high _ _ _ _ (by decide)).trans ?_

theorem FmtChime_word (f : FmtChime) (opc : BitVec 8) :
    FmtChime.ofWord (f.word opc) = f ∧ (f.word opc).extractLsb' 24 8 = opc := by
  cases f
  rw [FmtChime.mk.injEq]
  refine ⟨⟨?_, ?_, ?_, ?_, ?_, ?_⟩, ?_⟩ <;> repeat first
    | exact extract_self
    | rfl
    | refine (extract_low _ _ _ _ (by decide)).trans ?_
    | refine (extract_high _ _ _ _ (by decide)).trans ?_

end Sys2Proof.Laws
end

