-- ==== Sys2Proof/WellFormed.lean ====
section
/-! DEFINITION. Which commands the surroundings can send: what the manual fixes of an operand beyond its width. -/

namespace Sys2Proof

/-- A generation of 1 to 7 and a width of x1 to x16 (12 R373). -/
def linkOk (gen : BitVec 3) (width : BitVec 5) : Bool := gen != 0 && [1#5, 2#5, 4#5, 8#5, 16#5].contains width

/-- A configuration register lies at a multiple of 4 (12 R377). -/
def ConfigWrite.wf : ConfigWrite → Bool
  | .other offset _ | .read (.other offset) => offset.toNat % 4 == 0
  | _ => true

/-- Physical rows are 0 to 65 (05 R185; 17 R504). -/
def SelfTest.wf (t : SelfTest) : Bool := t.rows.all fun r => decide (r.toNat < 66)

/-- Physical rows are 0 to 65 (05 R185; 07 table 7.9). -/
def Mismatch.wf (m : Mismatch) : Bool := decide (m.row.toNat < 66)

/-- The length of a request is that of its data, or of its operand; it is not empty (08 R263; 13 R398). -/
def MemReq.wf (q : MemReq) : Bool :=
  decide (0 < q.len) &&
    match q.op with
    | .read => true
    | .write d => d.length == q.len
    | .atomic _ wide _ _ => q.len == if wide then 8 else 4

/-- A packet carries at most 256 bytes of data (14 R429). -/
def Packet.wf (k : Packet) : Bool := decide (k.data.length ≤ 256)

/-- A flit has 544 bytes, of which 512 carry payload in units of 16 (14 table 14.1). -/
def Flit.wf (x : Flit) : Bool := x.wrong.all (fun i => decide (i < 544)) && decide (x.cont ≤ 32) && x.payload.all Packet.wf

/-- A register lies at a multiple of 4 (16 R466). -/
def Flip.wf (f : Flip) : Bool := f.off % 4 == 0

/-- The command is well formed. -/
def Instr.wf : Instr → Bool
  | .add _ _ => true
  | .sub _ _ => true
  | .adc _ _ => true
  | .sbc _ _ => true
  | .and _ _ => true
  | .or _ _ => true
  | .xor _ _ => true
  | .andn _ _ => true
  | .sll _ _ => true
  | .srl _ _ => true
  | .sra _ _ => true
  | .ror _ _ => true
  | .min _ _ => true
  | .max _ _ => true
  | .minu _ _ => true
  | .maxu _ _ => true
  | .clz _ _ => true
  | .popc _ _ => true
  | .addi _ _ => true
  | .andi _ _ => true
  | .ori _ _ => true
  | .xori _ _ => true
  | .shi _ _ => true
  | .cmpi _ _ => true
  | .li _ _ => true
  | .lih _ _ => true
  | .addl _ _ => true
  | .mul _ _ => true
  | .mulhu _ _ => true
  | .mulhs _ _ => true
  | .divu _ _ => true
  | .divs _ _ => true
  | .remu _ _ => true
  | .rems _ _ => true
  | .pcmp _ _ => true
  | .ld _ _ => true
  | .st _ _ => true
  | .ldg _ _ => true
  | .stg _ _ => true
  | .ldgResponse _ => true
  | .stp _ _ => true
  | .psync _ _ => true
  | .br _ _ => true
  | .jal _ _ => true
  | .jr _ _ => true
  | .loop _ _ => true
  | .loopi _ _ => true
  | .lpop _ _ => true
  | .mset _ _ => true
  | .mget _ _ => true
  | .trap _ _ => true
  | .retx _ _ => true
  | .reseal _ _ => true
  | .exceptionEntry _ _ => true
  | .countMatch _ => true
  | .halt _ => true
  | .haltRelease _ => true
  | .step _ => true
  | .debugDataWrite _ _ _ => true
  | .latheDispatch _ _ => true
  | .pairDispatch _ _ _ => true
  | .queueStallRelease _ => true
  | .scalarResultWrite _ _ => true
  | .vsetl _ _ => true
  | .vcsr _ _ => true
  | .vld _ _ => true
  | .vst _ _ => true
  | .vlds _ _ => true
  | .vsts _ _ => true
  | .vgath _ _ => true
  | .vscat _ _ => true
  | .vgathFf _ _ => true
  | .vadd _ _ _ => true
  | .vsub _ _ _ => true
  | .vrsub _ _ _ => true
  | .vand _ _ _ => true
  | .vor _ _ _ => true
  | .vxor _ _ _ => true
  | .vsll _ _ _ => true
  | .vsrl _ _ _ => true
  | .vsra _ _ _ => true
  | .vmin _ _ _ => true
  | .vmax _ _ _ => true
  | .vminu _ _ _ => true
  | .vmaxu _ _ _ => true
  | .vmul _ _ _ => true
  | .vmulh _ _ _ => true
  | .vmulhu _ _ _ => true
  | .vaddsat _ _ _ => true
  | .vaddsatu _ _ _ => true
  | .vsubsat _ _ _ => true
  | .vsubsatu _ _ _ => true
  | .vavg _ _ _ => true
  | .vavgu _ _ _ => true
  | .vfrmul _ _ _ => true
  | .vshrr _ _ _ => true
  | .vshrra _ _ _ => true
  | .vclipnu _ _ _ => true
  | .vclipn _ _ _ => true
  | .vfadd _ _ _ => true
  | .vfsub _ _ _ => true
  | .vfmul _ _ _ => true
  | .vfdiv _ _ _ => true
  | .vfsqrt _ _ _ => true
  | .vfminnum _ _ _ => true
  | .vfmaxnum _ _ _ => true
  | .vfmin _ _ _ => true
  | .vfmax _ _ _ => true
  | .vfabs _ _ _ => true
  | .vfneg _ _ _ => true
  | .vfma _ _ _ => true
  | .vfms _ _ _ => true
  | .vfnma _ _ _ => true
  | .vfnms _ _ _ => true
  | .vceq _ _ _ => true
  | .vcne _ _ _ => true
  | .vclt _ _ _ => true
  | .vcge _ _ _ => true
  | .vcltu _ _ _ => true
  | .vcgeu _ _ _ => true
  | .vfceq _ _ _ => true
  | .vfclt _ _ _ => true
  | .vfcle _ _ _ => true
  | .vfcun _ _ _ => true
  | .vcvt _ _ _ => true
  | .vrsum _ _ _ => true
  | .vrmax _ _ _ => true
  | .vrmin _ _ _ => true
  | .vrmaxu _ _ _ => true
  | .vrminu _ _ _ => true
  | .vfrsum _ _ _ => true
  | .vfrmax _ _ _ => true
  | .vfrmin _ _ _ => true
  | .mand _ _ _ => true
  | .mor _ _ _ => true
  | .mxor _ _ _ => true
  | .mandn _ _ _ => true
  | .mnot _ _ _ => true
  | .msetMask _ _ _ => true
  | .mclr _ _ _ => true
  | .vmpop _ _ _ => true
  | .vmfirst _ _ _ => true
  | .vmv _ _ _ => true
  | .vmerge _ _ _ => true
  | .vext _ _ _ => true
  | .vins _ _ _ => true
  | .vid _ _ _ => true
  | .vtld _ _ _ => true
  | .vtst _ _ _ => true
  | .fop _ _ _ mism => mism.all Mismatch.wf
  | .fgauge _ _ _ mism => mism.all Mismatch.wf
  | .pload _ _ => true
  | .tsync _ _ => true
  | .seed _ _ => true
  | .scoreboardRelease _ _ => true
  | .drain _ _ _ mism => mism.all Mismatch.wf
  | .drainC _ _ _ mism => mism.all Mismatch.wf
  | .ladleRowHandoff _ => true
  | .drainAckComplete _ fail => fail.all fun x => decide (x.1 < 64)
  | .spareSwitchRequest _ _ _ _ => true
  | .spareSwitchApply _ => true
  | .residueInject _ => true
  | .rowCountClear _ => true
  | .drossStepDown => true
  | .forgeRestartGrant _ => true
  | .fenceB _ _ => true
  | .fenceS _ _ => true
  | .fenceH _ _ => true
  | .fenceD _ _ => true
  | .fenceP _ _ => true
  | .fenceTimeout _ => true
  | .responseTimeout _ => true
  | .cinv _ _ => true
  | .aswap _ _ => true
  | .aadd _ _ => true
  | .aand _ _ => true
  | .aor _ _ => true
  | .axor _ _ => true
  | .amin _ _ => true
  | .amax _ _ => true
  | .aminu _ _ => true
  | .amaxu _ _ => true
  | .acas _ _ => true
  | .afadd _ _ => true
  | .ald _ _ => true
  | .ast _ _ => true
  | .translationWalk _ _ _ _ => true
  | .quotaWaitRetry => true
  | .faultRecordWrite _ => true
  | .faultResolved _ _ => true
  | .faultAbandoned _ _ => true
  | .invalidate _ _ _ _ _ => true
  | .invalidationComplete _ => true
  | .lotEntryWrite _ => true
  | .memoryRequest q => q.req.wf
  | .scrubRead _ _ => true
  | .refresh _ => true
  | .deviceTempReadout _ _ => true
  | .temperSetLoad _ _ => true
  | .driftCheck _ _ _ => true
  | .periodicRetrain _ _ => true
  | .retrainSlice _ _ => true
  | .ingotRowRepair _ _ _ _ => true
  | .reliefGo _ _ _ => true
  | .reliefLineCopy => true
  | .marginPoint _ => true
  | .marginResult _ => true
  | .selfRefreshEntry _ => true
  | .groupBringup _ _ _ _ => true
  | .carterDoorbellWake _ => true
  | .move _ _ => true
  | .gather _ _ => true
  | .scatter _ _ => true
  | .fill _ _ => true
  | .carterNop _ _ => true
  | .mark _ _ => true
  | .rewind _ _ => true
  | .release _ _ => true
  | .markAndRelease _ _ => true
  | .descriptorComplete _ _ => true
  | .descriptorFail _ _ => true
  | .carterRequestTimeout _ _ => true
  | .launchCopyPart _ => true
  | .carterDisable _ => true
  | .localRingDisable _ => true
  | .hopperPutUnit _ _ => true
  | .idleTimeoutClose _ => true
  | .hopperTake _ _ => true
  | .autoRelease _ => true
  | .hopperNotice _ => true
  | .hopperDisable _ => true
  | .ringAdd _ _ => true
  | .ringSet _ _ => true
  | .ringAbort _ _ => true
  | .wait _ _ => true
  | .waitAsync _ _ => true
  | .peal _ _ => true
  | .bellCountWake _ => true
  | .bellWake _ => true
  | .bellCountSet _ => true
  | .chime _ _ => true
  | .chimeReceive _ _ _ _ _ _ => true
  | .chimeAckReceive _ _ _ => true
  | .chimeAckTimeout _ => true
  | .chimeResend _ => true
  | .ringTailDoorbell _ _ _ => true
  | .cqHeadDoorbell _ _ _ => true
  | .shiftDoorbell _ => true
  | .fetchTurn _ => true
  | .nop _ => true
  | .launch _ => true
  | .copy _ => true
  | .bwait _ => true
  | .bring _ => true
  | .benchAssign _ => true
  | .benchRelease _ => true
  | .groupWake _ => true
  | .kernelEnd _ => true
  | .klimLapse _ => true
  | .completionRecordWrite _ => true
  | .slotPreempt _ => true
  | .slotAbort _ => true
  | .slotResume _ => true
  | .slotNotice _ => true
  | .autoPreempt => true
  | .benchHandover _ => true
  | .stateImageWrite _ => true
  | .stateImageRestore _ => true
  | .shiftBoundary => true
  | .ringResume _ => true
  | .ringDisable .. => true
  | .benchDisable _ => true
  | .benchReset _ => true
  | .benchResetComplete t => t.wf
  | .seizureReset t => t.wf
  | .errorRecordWrite _ => true
  | .linkTraining _ gen width _ => linkOk gen width
  | .linkRecovery _ gen width => linkOk gen width
  | .linkDown _ => true
  | .linkUp _ => true
  | .holdTimeout _ => true
  | .hotReset _ => true
  | .perLinkReset _ => true
  | .functionLevelReset _ => true
  | .bar4Read _ _ len => decide (0 < len)
  | .bar4Write _ _ data _ => !data.isEmpty
  | .bar4Atomicop _ _ => true
  | .lgo => true
  | .msixSend _ _ => true
  | .msixUnmask _ _ => true
  | .hostCompletion _ _ _ => true
  | .functionDisable _ => true
  | .flitReceive _ x => x.wf
  | .replayTimeout _ => true
  | .laneDegrade _ _ => true
  | .portLinkUp _ _ _ port => decide (port.toNat < 12)
  | .portDisable _ => true
  | .packetForward k => k.wf
  | .pathFailover _ => true
  | .dryRtWrite _ _ => true
  | .routeChange _ => true
  | .peerRequest _ _ q => q.wf
  | .peerResponse _ _ _ _ => true
  | .credit _ _ _ _ => true
  | .allreduce _ => true
  | .reducescatter _ => true
  | .allgather _ => true
  | .broadcast _ => true
  | .reduce _ => true
  | .alloyHello _ _ => true
  | .alloyData _ _ _ _ data => data.length == 256
  | .collTimeout _ => true
  | .distress _ _ _ _ _ => true
  | .distressHoldExpiry _ => true
  | .alloyQuarterDisable _ => true
  | .sensorSample samples _ => samples.all fun x => decide (x.1 < 144)
  | .quenchFall _ => true
  | .level4Stop _ => true
  | .dwellExpired _ => true
  | .thermalTrip sensor _ _ => decide (sensor.toNat < 144)
  | .powerCheck _ => true
  | .divisorChange _ => true
  | .droopStretch _ => true
  | .ruleEvaluation => true
  | .napEntry => true
  | .dozeRequest => true
  | .awakeRequest => true
  | .dozeWake => true
  | .refclkLoss => true
  | .mldPour _ => true
  | .postedWriteLand blk => [4, 10, 14].contains blk
  | .pourFieldLand _ => true
  | .parityScrub blk _ => decide (blk < 21)
  | .protModeWrite blk _ _ => decide (blk < 21)
  | .blockDrainComplete _ => true
  | .registerWrite _ off _ => off % 4 == 0
  | .powerOn => true
  | .powerOff => true
  | .perstAssert => true
  | .perstRelease _ => true
  | .railDeparture => true
  | .putRecord _ _ => true
  | .putImage _ _ _ => true
  | .activate _ => true
  | .getRecord _ => true
  | .getMeas _ => true
  | .attest _ nonce => nonce.length == 32
  | .putConfig _ _ => true
  | .identityKeyDerived => true
  | .benchSelfTest ts => ts.all SelfTest.wf
  | .ready => true
  | .runtimeWatchdog => true
  | .regRead off => off % 4 == 0
  | .regWrite off _ => off % 4 == 0
  | .getState => true
  | .sbGetMeas => true
  | .sbAttest nonce => nonce.length == 32
  | .alertResponse => true
  | .bypass => true
  | .idcode => true
  | .samplePreload => true
  | .extest => true
  | .extestPulse => true
  | .extestTrain => true
  | .clamp => true
  | .highz => true
  | .enableWrite _ => true
  | .configurationRequest _ w => w.wf
  | .completionTimeout _ => true
  | .assayVote blk _ flips => decide (blk < 21) && flips.all Flip.wf

end Sys2Proof
end

