-- ==== Sys2Proof/Tests/Slice0.lean ====
section
/-! SUPPORT. Own tests: a term that each check of WellFormed refuses, worked examples of the manual, and for every obligation with
hypotheses operands and a state that meet them. -/

namespace Sys2Proof.Tests

set_option maxRecDepth 100000
set_option Elab.async false

open Sys2Proof.Machine Sys2Proof.Claims

/-! ## Well-formedness: each check refuses a term -/

def req (op : ReqOp) (len : Nat) : MemReq := { dpa := 0x1000, len, op, hmk := 5 }
def ctrl (op : ReqOp) (len : Nat) : CtrlReq := { req := req op len }
def badRow : Mismatch := { row := 66, at_ := 0 }

theorem test_wf_rows :
    [Instr.fop 3 {} none [badRow], .fgauge 3 {} none [badRow], .drain 3 {} none [badRow], .drainC 3 {} none [badRow],
      .benchResetComplete { bench := 3, rows := [66] }, .seizureReset { bench := 3, rows := [66] },
      .benchSelfTest [{ bench := 3, rows := [66] }]].map Instr.wf = List.replicate 7 false
    ∧ [Instr.fop 3 {} none [{ badRow with row := 65 }], .benchSelfTest [{ bench := 3, rows := [65] }]].map Instr.wf = [true, true] := by
  decide

theorem test_wf_requests :
    [Instr.memoryRequest (ctrl .read 0), .memoryRequest (ctrl (.write [1, 2]) 3), .memoryRequest (ctrl (.atomic 1 true 5 0) 4),
      .peerRequest 5 7 (req .read 0), .bar4Read 0 0 0, .bar4Write 0 0 [] false, .alloyData 1 0 0 false [1]].map Instr.wf
        = List.replicate 7 false
    ∧ [Instr.memoryRequest (ctrl (.atomic 1 true 5 0) 8), .peerRequest 5 7 (req (.write [1]) 1)].map Instr.wf = [true, true] := by
  decide

theorem test_wf_host :
    [Instr.linkTraining 0 0 16 true, .linkTraining 0 5 3 true, .linkRecovery 0 5 0, .configurationRequest 0 (.other 6 0),
      .configurationRequest 0 (.read (.other 6)), .portLinkUp 2 0 7 12].map Instr.wf = List.replicate 6 false
    ∧ [Instr.linkTraining 0 5 16 true, .portLinkUp 2 0 7 11].map Instr.wf = [true, true] := by decide

theorem test_wf_links :
    [Instr.flitReceive 2 { seq := 0, ack := 0, wrong := [544] }, .flitReceive 2 { seq := 0, ack := 0, cont := 33 },
      .flitReceive 2 { seq := 0, ack := 0, payload := [{ type := 6, data := List.replicate 257 0 }] },
      .packetForward { type := 6, data := List.replicate 257 0 }, .drainAckComplete 3 (some (64, .link))].map Instr.wf = List.replicate 5 false
    ∧ [Instr.flitReceive 2 { seq := 0, ack := 0, wrong := [543], cont := 32 },
      .packetForward { type := 6, data := List.replicate 256 0 }, .drainAckComplete 3 (some (63, .link))].map Instr.wf = List.replicate 3 true := by
  decide

theorem test_wf_service :
    [Instr.sensorSample [(144, 5)] 0, .thermalTrip 144 0 0, .postedWriteLand 5, .parityScrub 21 [], .protModeWrite 21 3 true,
      .assayVote 21 3 [],
      .assayVote 5 3 [{ off := 6 }], .registerWrite .pf 6 0, .regRead 2, .regWrite 3 0, .attest { obj := 0, cap := 0 } [1], .sbAttest [1]].map Instr.wf
        = List.replicate 12 false
    ∧ [Instr.sensorSample [(143, 5)] 0, .postedWriteLand 14, .regRead 4, .sbAttest (List.replicate 32 0)].map Instr.wf
        = List.replicate 4 true := by decide

/-! ## States -/

/-- Clocks run, PERST_N is released, and every stack is in service. -/
def on : State := ({ rootOn := true, sec := { perst := false } } : State).setReg ⟨.ingStatus, 0, 0⟩ 0xFFFF
/-- Bench 3 runs core `c`. -/
def core3 (c : Core) : State := on.setBench 3 { core := { c with running := true } }
/-- Scalar registers. -/
def regs4 : Sparse W64 := [(1, 7), (2, 0xFFFFFFFFFFFFFFF9), (3, 0x8000000000000000), (4, 0x7FFFFFFFFFFFFFFF), (6, 0x123456), (7, 64)]
/-- A core of bench 3. -/
def c0 : Core := { pc := 0x40, sregs := regs4, mxsp := 0x1000, mxsl := 0x100, flags := { c := true, n := true, p1 := true } }
/-- A core at level `l`. -/
def atLevel (l : BitVec 2) : State := core3 { c0 with pl := l }
/-- `s` at PHASE READY. -/
def rdy (s : State) : State := s.setFld .secState 0 31 28 5
/-- Words of device memory at `a`. -/
def words (s : State) (a : Nat) (l : List Nat) : State :=
  { s with mem := { s.mem with dram := s.mem.dram.setBytes id a (l.flatMap fun w => (List.range 8).map fun k => BitVec.ofNat 8 (w / 256 ^ k)) } }
/-- A cached leaf for page `p` of hallmark `h` in cache `n`. -/
def leafIn (s : State) (n : Nat) (h : BitVec 12) (p : Nat) (leaf : W64) : State :=
  { s with xlat := { s.xlat with caches := Sp.put s.xlat.caches n (⟨h, p, 1, leaf, 0⟩ :: s.tcache n) } }
/-- The host links are up. -/
def links (s : State) : State := [0, 1, 2, 3].foldl (fun (s : State) k => s.setReg ⟨.pexLinkStat, k, 0⟩ 0x80000000) s
theorem nothingCame_iff (s : State) (b : BenchId) : nothingCame s b ↔
    s.late.all (fun l => l.bench != some b) = true ∧ (match (s.bench b).core.stall with | some (.response _ _) => false | _ => true) = true := by
  unfold nothingCame
  cases h : (s.bench b).core.stall with
  | none => simp
  | some w => cases w <;> simp
theorem chan_full_iff (s : State) (a : Nat) : (∃ c, s.sleeps a = some c ∧ s.chanFull c = true) ↔ (s.sleeps a).any s.chanFull = true := by
  cases s.sleeps a <;> simp
theorem chan_room_iff (s : State) (a : Nat) : (∀ c, s.sleeps a = some c → s.chanFull c = false) ↔ (s.sleeps a).any s.chanFull = false := by
  cases s.sleeps a <;> simp
theorem exists_snd_iff (xs : List (Nat × LineErr)) (e : LineErr) : (∃ l, (l, e) ∈ xs) ↔ xs.any (fun x => x.2 == e) = true := by
  simp only [List.any_eq_true, beq_iff_eq]
  exact ⟨fun ⟨l, h⟩ => ⟨_, h, rfl⟩, fun ⟨⟨l, _⟩, h, hx⟩ => ⟨l, by subst hx; exact h⟩⟩
def inLoop : State := core3 { c0 with loops := [⟨3, 0x3E, 0x40⟩, ⟨1, 0x30, 0x40⟩] }
def jStack (c : Core) : State := ((core3 c).setReg ⟨.benXjSp, 3, 0⟩ 0x2000).setReg ⟨.benXjSl, 3, 0⟩ 0x1000
def trapped : State := (jStack { c0 with pl := 0 }).enter 3 1 { cause := { code := causeTrap }, ret := 0x77 }
def noticed : State := core3 { c0 with pl := 2, ien := 0xF, pendNotice := true }
def halted3 : State := (core3 { c0 with halted := true, why := 1 }).setReg ⟨.benDbgSel, 3, 0⟩ 4
/-- A core at Journeyman whose top frame, all 0 but for its seal, is at 0x1F80. -/
def returning : State :=
  ((core3 { c0 with pl := 1, xdepth := 1 }).setReg ⟨.benXjSp, 3, 0⟩ 0x1F80).updBench 3 fun x =>
    { x with store := [(0x1F90, (seal16 x.core.xkey 0 1).extractLsb' 0 8), (0x1F91, (seal16 x.core.xkey 0 1).extractLsb' 8 8)] }
/-- Bench 3 is halted, and BEN_DBG_SEL selects special register `n`. -/
def haltedAt (l : BitVec 2) (n : W32) : State := (core3 { c0 with halted := true, why := 1, pl := l }).setReg ⟨.benDbgSel, 3, 0⟩ (0x100 + n)
/-- The word at PC carries error `e`. -/
def badWord (s : State) (e : PsMark) : State := s.updBench 3 fun x => { x with psErr := Sp.put x.psErr 0x40 e }
def vadd : EngInstr := .vv .vadd { vd := 1, va := 2, vb := 3 }
def vext : EngInstr := .vv .vext { vd := 9, va := 2, vb := 1 }
def fop : EngInstr := .fop { t := 2, ra := 1, rb := 6 }
def dispatching : State := core3 { c0 with lookahead := [⟨0x40, 0, false⟩, ⟨0x41, 0, false⟩], fetchDue := false, pl := 1 }
def changed (s : State) (f : Bench → Bench) : State := s.updBench 3 f
def stalled3 (s : State) (x : Stall) : State := changed s fun y => { y with core := { y.core with stall := some x } }
def fullQueue : State := changed dispatching fun x => { x with lathe := { x.lathe with queue := (List.range 16).map fun k => { instr := vadd, seq := k } } }
def formed : State := changed dispatching fun x => { x with core := { x.core with results := [(9, 77)], pendingScalar := [9] } }
def context5 (s : State) : State := { s with xlat := { s.xlat with contexts := [(5, 0x8000000000200000, 0x30000), (0, 0x8000000000000000, 0)] } }
/-- Page 0x12 of hallmark 0 leads to DPA 0x20000 in the leaf cache of bench 3. -/
def mapped : State :=
  let s := context5 dispatching
  { s with xlat := { s.xlat with caches := [(3, [⟨0, 0x12, 1, 0x200C3, 0⟩])] }, mem := { s.mem with dram := [(0x23456, 1), (0x23461, 0x85)] } }
def mapped2 : State := changed mapped fun x => { x with dcache := [{ space := 1, line := 0x23440 / 64, data := (List.range 64).map (BitVec.ofNat 8) }] }
def piece : Piece := { way := ⟨.dpa 0x23460, 0, false, 0⟩, dva := 0x123460, len := 2 }
def loading : Access := { kind := .load 9 true, ea := 0x123460, size := 2, word := 0 }
def belled : State := { dispatching with belfry := { dispatching.belfry with counts := [(7, 7)] } }
def busyLathe : State := changed dispatching fun x => { x with lathe := { x.lathe with queue := [{ instr := vadd, seq := 1 }] } }
def linked : State :=
  let s := ((dispatching.setReg ⟨.dryId, 0, 0⟩ 1).setReg ⟨.dryPortStat, 0, 0⟩ 0x20000000).setReg ⟨.dryPortCfg, 0, 0⟩ 0x80000000
  { s with dray := { s.dray with pri := [(2, 0x80FFFFF0), (0x012, 0x80FFFFF0)] } }
def chimed : State :=
  { linked with belfry := { linked.belfry with expect := [(2, 1)], sent := [{ peer := 2, seq := 1, resync := false, hmk := 0, bell := 3, v := 4 }] } }
def entry (i : EngInstr) (a b : W64) : Entry := { instr := i, a, b, level := 1, epc := 0x40, sew := 1, seq := 1 }
def latheAt (l : Lathe) (e : Entry) : State := on.setBench 3 { core := { running := true }, lathe := { l with queue := [e] }, store := [(0x1008, 5)] }
def vector1 : Lathe := { v := [(4096, 3), (8192, 250), (12288, 77)], m := [(1, true), (32768, true)], vl := 5, sew := 1 }
def vv (op : VvOp) : EngInstr := .vv op { vd := 1, va := 2, vb := 3 }
def vm (op : VmOp) : EngInstr := .vm op { vd := 1, ra := 1, rb := 2 }
def vms (op : VmOp) : EngInstr := .vm op { vd := 1, ra := 1 }
/-- The lathe of bench 3 works at page 0x123 of hallmark 0, which leads to DPA 0x20000. -/
def latheMapped (e : Entry) : State :=
  let s := context5 (latheAt { vector1 with vl := 1 } e)
  { s with xlat := { s.xlat with caches := [(3, [⟨0, 0x12, 1, 0x200C3, 0⟩])] }, mem := { s.mem with dram := [(0x23460, 1), (0x23461, 0x85)] } }
def fentry (i : EngInstr) (a b c : W64) : Entry := { instr := i, a, b, c, level := 1, epc := 0x40, seq := 1 }
def forge3 (y : Forge) : State :=
  on.setBench 3 { core := { running := true, cycle := 100 }, lathe := { v := [(0, 5), (4096, 9)] }, forge := y, store := [(0x1000, 7)] }
def heads (e : Entry) : Forge := { queue := [e], tiles := [(2 * 8192, 5)], weA := 1, weB := 1 }
/-- Column operand in v1, row operand in v0. -/
def fopEntry : Entry := fentry (.fop { t := 2, fmt := 7 }) 0x0000000001000000 4 0
def ploadEntry : Entry := fentry (.pload { ra := 1, rb := 2 }) 0x1000 0x4000300200 0
def drainEntry (dst : W64) (d : W64) : Entry := fentry (.drain true { t := 2, ra := 4, rb := 2, rc := 3 }) dst d 0
def toPages : W64 := 0x4DA0000001
def handing (o : LadleOp) : State :=
  let s := (forge3 { ladle := some o }).setFld .crtBStatus 7 29 29 1
  { s with xlat := { s.xlat with contexts := [(0, 0x8000000000000000, 0)], caches := [(256 + 7, [⟨0, 0x12, 1, 0x200C3, 0⟩])] } }
/-- Row `i` of the ladle's drain has not been acknowledged. -/
def awaitRow (s : State) (i : Nat) : State :=
  { s with mem := { s.mem with acks := s.mem.acks ++ [{ who := { eng := .ladle 3, run := i }, hmk := 0, dva := 0, len := 64, way := ⟨.peer 7 0, 0, false, 0⟩ }] } }
/-- Tables of hallmark 0, and no table of hallmark 5. -/
def tq : State :=
  let s := { on with xlat := { on.xlat with contexts := [(0, 0x8000000000100000, 0), (5, 0x8000000000200000, 0x30000)] } }
  (words (words (words s 0x100000 [0x108001]) 0x108000 [0x110001]) 0x110000 [0x200C3, 0x4000000300C3, 0]).setReg ⟨.xltFquota, 0, 0⟩ 0x00010202
def joinS : State := tq.setFault 9 { used := true, gen := 4, hmk := 0, page := 2, sub := 1, join := 0xFF, fn := 0, waiters := [(.core 1, 5)] }
def ringS (k : RecRing) (f : Nat) : State :=
  (((on.setReg ⟨k.cfg, f, 0⟩ 0xC0050007).setReg ⟨k.lo, f, 0⟩ 0x5000).setReg ⟨k.tail, f, 0⟩ 33).setReg ⟨k.head, f, 0⟩ 3
def fr : FaultRec := ⟨0x1111222233334444, 2, 3, 0x12345678⟩
def er : ErrRec := { src := 9, event := 0x1234, hmk := 0xABC, fn := 0x2A, unit_ := 0xFFFF, w2 := 5, w3 := 6 }
def load3 : Entry := { instr := .vm .vld { vd := 1, ra := 1, rb := 2, sp := 1 }, a := 0x23000, b := 4, level := 1, epc := 0x40, sew := 2 }
def waiting (w : EngWait) (q : List QuotaWait) : State :=
  { (rdy tq).setBench 3 { core := { running := true }, lathe := { queue := [load3, load3], vl := 4, wait := some w } } with
    xlat := { tq.xlat with quota := q } }
def named (e : Engine) (s : State) : State := s.setFault 9 { used := true, gen := 4, hmk := 0, page := 2, sub := 1, join := 3, fn := 0, waiters := [(e, 0x23000)] }
def access3 : Access := { kind := .load 9 true, ea := 0x23000, size := 2, word := 0 }
def faulted3 : State := named (.core 3) (waiting .quota []) |>.updCore 3 fun c => { c with stall := some (.fault access3 (.fault 9)), pl := 2, mxsp := 0x1000, mxsl := 0x100 }
def ringI : State :=
  let s := ((links tq).setReg ⟨.cthRingCfg, 9, 0⟩ 0x83050005).setReg ⟨.cthRingFetch, 9, 0⟩ 3
  (leafIn { s with xlat := { s.xlat with epoch := 3 } } 3 5 2 0x200C3).updRing 9 fun g => { g with tail := 5 }
/-- A read of the core of bench 3 for hallmark `h` by DVA page `p`, with the epoch of its translation. -/
def flight (h : BitVec 12) (p : Nat) (epoch : W32) : Flight :=
  { who := { eng := .core 3 }, hmk := h, dva := BitVec.ofNat 64 (65536 * p), len := 8, way := ⟨.peer 7 0, 0, false, epoch⟩ }
def inval : Invalidation := ⟨4, 9, 0x5000000000000000, 3, some 5, 2, 7⟩
def entryI : SEntry := { n := 3, words := [0x5000000000000000, 5, 0x20000, 7], st := .begun }
def invalS (l : List Flight) : State :=
  let s := ringI.updRing 9 fun g => { g with entries := [entryI], recs := [{ n := 2, w0 := 0, w1 := 0, w2 := 0, w3 := 0, irq := false }] }
  { s with xlat := { s.xlat with inval := [inval], flights := l } }
def memS : State := words on 0x1000 [0x0807060504030201, 0x100F0E0D0C0B0A09]
def lotS : State := { memS with mem := { memS.mem with lots := [(0, 0x80000FFF)] } }
def dozing : State := memS.updServ fun x => { x with selfRef := [0] }
def yard : State := ((memS.setReg ⟨.yrdStatus, 0, 0⟩ 6).setReg ⟨.yrdGrpCfg, 1, 0⟩ 0x90000004).setReg ⟨.yrdGrpCfg, 2, 0⟩ 0xC4000002
def spread : State := yard.setReg ⟨.yrdSpread, 0, 0⟩ 0x06000004
def reserve : State := spread.setReg ⟨.yrdGrpCfg, 1, 0⟩ 0x98000000
def scrubbing : State := yard.setReg ⟨.ingCfg, 0, 0⟩ 0x05
def relief (wm : Nat) : State := reserve.updServ fun y => { y with relief := some { g := 1, ch := 4, wm } }
/-- Firmware is in. -/
def loaded (s : State) : State := { s with sec := { s.sec with current := [(2, ⟨1, 0, [], []⟩), (3, ⟨1, 0, [], []⟩)] } }
def groups0 : State := ((loaded yard).setReg ⟨.yrdStatus, 0, 0⟩ 0).setReg ⟨.ingStatus, 0, 0⟩ 0xFFFD
/-- The queue of the channel of DPA 0x1000 holds 128 requests. -/
def fullChan : State := { dozing with held := List.replicate 128 ⟨(dozing.sleeps 0x1000).getD 0, .out (.served 0 .ok [])⟩ }
/-- Line `l` of the ingot's channel 0 carries an error. -/
def scrubErr (e : LineErr) : State := { scrubbing with mem := { scrubbing.mem with lineErr := [(0, e)] } }
/-- ING_CFG.ROWCE is 0. -/
def repairing : State := yard.setReg ⟨.ingCfg, 0, 0⟩ 0
/-- A descriptor of type `t` with its LES, words 1 to 4 and dimensions (COUNT, source stride, destination stride). -/
def desc (t les w1 w2 w3 w4 : Nat) (dims : List (Nat × Nat × Nat)) : List W64 :=
  [t * 2 ^ 60 + dims.length * 2 ^ 57 + les * 2 ^ 54, w1, w2, w3, w4].map (BitVec.ofNat 64) ++
  (List.range 5).flatMap (fun k => match dims[k]? with
    | some (c, s, d) => [BitVec.ofNat 64 (s * 2 ^ 24 + c), BitVec.ofNat 64 (d * 2 ^ 24)]
    | none => [0, 0]) ++ [0]
/-- Word 3: the spaces and benches of source and destination. -/
def spaces (sk dk sb db : Nat) : Nat := sk * 2 ^ 60 + dk * 2 ^ 56 + sb * 2 ^ 48 + db * 2 ^ 40
def run (w : List W64) : Run := { id := 7, src := .ring 3, words := w, hmk := 5 }
def C7 : CarterId := .bench 7
/-- Carter 7 of bench 3 in service, its local ring at 0x3000, its slot held by a kernel on bench 3. -/
def feeding (c : CarterId) (x : Carter) : State :=
  let s := (((on.setCarterFld c 3 29 29 1).setCarterFld c 2 31 31 1).setCarterFld c 2 15 0 9).setReg (carterReg c 0) 0x3000
  let s := s.updBench 3 fun b => { b with core := { b.core with running := true }, slot := some 2, store := [(0x1000, 3), (0x2003, 9), (0x3000, 0x40)] }
  let s := (s.setKernel 2 { phase := .running, benches := [3] }).setFld .fmnSlotStat 2 23 12 5
  { s with belfry := { s.belfry with groups := [(0, 5)] } }.updCarter c fun _ => x
def lr (r : Run) : State := feeding C7 { loc := [r] }
def move2 : List W64 := desc 0 2 0x1000 0x2000 (spaces 1 1 3 3) 0 [(3, 4, 8), (2, 32, 64)]
def fill9 : List W64 := desc 3 0 0 0x2000 (spaces 0 1 0 3) 0x1122334455667788 [(9, 0, 1)]
def gather3 : List W64 := desc 1 2 0x1000 0x2000 (spaces 1 1 3 3) 0x3000 [(3, 0, 4)]
/-- A local ring with TAIL, HEAD and the descriptor at HEAD. -/
def ring0 (head tail : Nat) : State :=
  (feeding C7 { seen := 1 }).updBench 3 fun b =>
    { b with store := ((b.store.setLe id 0x3000 8 tail).setLe id 0x3008 8 head).setBytes id (0x3000 + 128 * (1 + head % 16)) (fill9.flatMap fun v => leBytes 8 v.toNat) }
def failed : RunSt := .failed 5 9 0x123456
def fillIssued : Run := { run fill9 with st := .issued }
def fillFailed : Run := { run fill9 with st := failed }
def copyE : SEntry := { n := 3, words := 0x2800000000000000 :: fill9, st := .begun }
def copying (r : Run) : State := (feeding C7 { fore := [r] }).updRing 9 fun g => { g with entries := [copyE] }
def partE : SEntry := { n := 3, words := 0x2000000000000000 :: desc 3 0 0 0x2000 (spaces 0 1 0 0 + 2 ^ 18) 0 [(9, 0, 1)], st := .begun, parts := [0, 1, 2] }
def partS : State := ((feeding (.shop 0) {}).setKernel 2 { phase := .assigned, benches := [3, 5], written := [5], ring := 9 }).updRing 9 fun g => { g with entries := [partE] }
def hop (cfg : W32) (x : Hopper) (s : State) : State :=
  (((s.setReg ⟨.hopCfg, 17, 0⟩ cfg).setReg ⟨.hopStatus, 17, 0⟩ 0x20000000).setReg ⟨.hopOwn, 17, 0⟩ 0x00090005).updHopper 17 fun _ => x
def put17 : Run := run (desc 3 3 0 0 (spaces 0 5 0 0 + 17 * 2 ^ 20) 0x1122334455667788 [(16, 0, 0)])
def take17 : Run := run (desc 0 3 0 0x2000 (spaces 5 1 0 3 + 17 * 2 ^ 30) 0 [(8, 0, 8)])
def ctl17 (op : Nat) : Run := run (desc 4 0 0 0 (17 * 2 ^ 30) (op * 2 ^ 60) [])
def full17 (rd : Bool) : Hopper := { wr := 9, vis := 8, rd := 6, mark := 4, rel := 2, open_ := some (C7, true), claims := [{ carter := C7, loc := false, lo := 2, n := 2, read := rd }, { carter := C7, loc := false, lo := 4, n := 2, read := true }], notices := [5, 6] }
/-- A write of element 2 of carter 7's descriptor has left and is not acknowledged. -/
def sent7 : Flight := { who := { eng := .carter C7, run := runMark true 7, n := 2, el := 0x2008 }, hmk := 5, dva := 0x2008, len := 4, way := ⟨.peer 9 0x2008, 0, false, 0⟩ }
def sending (r : Run) : State := { lr r with mem := { (lr r).mem with acks := [sent7] } }
/-- Ring 9 of function 3 and hallmark 5, enabled, its link up. -/
def ring9 (g : Ring) : State :=
  let s := rdy (links on)
  let s := { s with xlat := { s.xlat with contexts := [(5, 0x8000000000200000, 0x30000)] }, belfry := { s.belfry with groups := [(0, 5)], counts := [(9, 4)] } }
  let s := ((s.setReg ⟨.cthRingCfg, 9, 0⟩ 0x83000005).setReg ⟨.cthRingFetch, 9, 0⟩ 3).setReg ⟨.pexFnCtl, 3, 0⟩ 0x10000000
  let s := ((s.setReg ⟨.cthRingBaseLo, 9, 0⟩ 0x4000).setReg ⟨.cthRingCqLo, 9, 0⟩ 0x5000).setReg ⟨.cthRingCqcfg, 9, 0⟩ 2
  ((s.setFld .fmnSlotStat 2 23 12 5).setFld .fmnSlotStat 2 31 28 1).updRing 9 fun _ => g
/-- Entry 3 with a header and body. -/
def en (hd : W64) (body : List W64) : SEntry := { n := 3, words := hd :: body }
/-- The entry waits in ring 9, bound to slot 2. -/
def queued (e : SEntry) : State := ring9 { slot := some 2, slotFn := 3, entries := [e, { e with n := 4 }] }
def bell5 : List W64 := [0x0009000000000005]
def copy5 : List W64 := desc 0 3 0x1000 0x2000 0 0 [(4, 8, 0x10)]
def rec3 : CRec := { n := 3, w0 := 0x1111, w1 := 2, w2 := 3, w3 := 4, irq := true }
def recsS (head : W32) : State := (ring9 { cqHead := head, recs := [rec3], entries := [{ en 0 [] with st := .ended }] }).setReg ⟨.cthRingCqtail, 9, 0⟩ 21
def msixS : State := (ring9 {}).updFn 3 fun x => { x with msixEnable := true, msix := [(3, { addr := 0x5000, data := 0x77 })], due := [(1, .fault), (3, .ring 9)] }
/-- A launch on `nben` benches of 1, 2, 3 and 17 with completion bell 9 and target 5. -/
def launch (nben pri klim : Nat) : List W64 :=
  [0x0009000000000005, BitVec.ofNat 64 (nben * 2 ^ 40 + pri * 2 ^ 38 + 0x77 * 2 ^ 16 + klim * 2 ^ 8 + 0x1E), 0x300000000099, 0, 0, 0, 0, 0x2000E] ++ List.replicate 23 0
def launchE (nben : Nat) : SEntry := en 0x1000000000000000 (launch nben 1 0)
def benchesOn (s : State) : State := ([1, 2, 3, 5, 17] : List BenchId).foldl (fun (s : State) (b : BenchId) => s.setReg ⟨.fmnBenchCtl, b.val, 0⟩ 0x90000000) s
def kernelS (nben : Nat) (k : Kernel) : State :=
  let e := { launchE nben with st := .begun }
  (benchesOn (queued e)).setKernel 2 { k with ring := 9, n := 3, words := e.words }
def assigned (l : List BenchId) (f : Bench → Bench) (s : State) : State := l.foldl (fun (s : State) (b : BenchId) => s.updBench b fun x => f { x with slot := some 2 }) s
def running : State := assigned [2, 5, 17] id (kernelS 3 { phase := .running, benches := [2, 5, 17], woken := [2] })
def autoS : State :=
  let s := (kernelS 2 { phase := .running, benches := [2, 5], woken := [2] }).setReg ⟨.fmnCfg, 0, 0⟩ 0x80000000
  let s := ((assigned [2, 5] id s).setKernel 4 { phase := .waiting, ring := 9, n := 3, words := 0 :: launch 2 3 0 }).setReg ⟨.fmnSlotImgLo, 2, 0⟩ 0x400000
  (([1, 3, 17] : List BenchId).foldl (fun (s : State) (b : BenchId) => s.updBench b fun x => { x with slot := some 5 }) { s with launchq := [4] })
def preempting (c : Core) (handed : Bool) : State :=
  (assigned [2, 5] (fun x => { x with core := c, handed, store := [(5, 5)] }) (kernelS 2 { phase := .preempting, benches := [2, 5], woken := [2] })).setReg ⟨.fmnSlotImgLo, 2, 0⟩ 0x400000
def preempted : State :=
  { (kernelS 2 { phase := .preempted, benches := [2, 5], images := [(0, { core := { pc := 0x99 } })] }).setReg ⟨.fmnSlotImgLo, 2, 0⟩ 0x400000 with launchq := [] }
def spareBench (ctl : W32) : State := (ring9 {}).setReg ⟨.fmnBenchCtl, 3, 0⟩ ctl
/-- Bytes of host memory: little-endian words at `a`. -/
def cells (a : Nat) (w : List W64) : Cells := (w.flatMap fun (v : W64) => leBytes 8 v.toNat).zipIdx.map fun p => (a + p.2, p.1)
/-- A drain whose row 3 has failed, after 7 rows were handed over. -/
def ladleO : LadleOp := { entry := drainEntry 0x123400 toPages, rows := 7, failed := some (3, { code := 4 }) }
def ladlePre : State := (preempting { pl := 2 } true).updBench 2 fun x => { x with forge := { x.forge with ladle := some ladleO, tiles := [(9, 7)] } }
/-- The host port at work, window unit 2 open and 64 KiB long. -/
def host0 : State :=
  let s := words (rdy (links on)) 0x1000 [0x0807060504030201]
  let s := ((s.setReg ⟨.pexAwinCfg, 2, 0⟩ 0xC0000000).setReg ⟨.pexAwinOff, 2, 0⟩ 3).setReg ⟨.pexAwinLen, 2, 0⟩ 1
  { s with xlat := { s.xlat with contexts := [(5, 0x8000000000200000, 0x30000)] } }
def linkOff : State := host0.setReg ⟨.pexLinkStat, 0, 0⟩ 0
def hostWay (n : BitVec 6) (q : Option (BitVec 20)) : Way := { target := .host n q 0x5000, smask := 0, watched := false, epoch := 0 }
def hostPiece : Piece := { way := hostWay 3 none, dva := 0x123000, len := 4 }
def hostPasid : Piece := { way := hostWay 3 (some 7), dva := 0x123000, len := 4 }
def flight3 (x : Piece) : Flight := { who := { eng := .core 3 }, hmk := 5, dva := x.dva, len := x.len, way := x.way, tag := 9 }
def peerFlight : Flight := { flight3 hostPiece with way := { hostWay 3 none with target := .peer 2 0x5000 } }
def downed : State :=
  { host0.setReg ⟨.pexLinkStat, 0, 0⟩ 0x29000000 with
    portq := [(0, [.write none 3 none 0x5000 [1, 2, 3], .msix 0 3])], xlat := { host0.xlat with flights := [peerFlight] } }
def keeping (s : State) : State := s.setReg ⟨.pexLinkCfg, 0, 0⟩ 0x80000000
def load9 : Access := { kind := .load 9 true, ea := 0x123000, size := 2, word := 0 }
def reading (x : Piece) : State :=
  let c : Core := { running := true, pl := 2, pc := 0x40, mxsp := 0x1000, mxsl := 0x100, stall := some (.response load9 [x]), pendingScalar := [9] }
  { host0.updBench 3 fun b => { b with core := c } with xlat := { host0.xlat with flights := [flight3 x] } }
def asleep0 : State := host0.updServ fun x => { x with selfRef := [0] }
def flit (q : BitVec 12) : Flit := { seq := q, ack := 0, idle := true }
def badFlit : Flit := { flit 0 with wrong := [0, 4, 8, 12] }
/-- Port 2 enabled, in STATE `st`. -/
def portS (st : BitVec 32) (y : Port) : State :=
  { (host0.setReg ⟨.dryPortStat, 2, 0⟩ (st <<< 28)).setReg ⟨.dryPortCfg, 2, 0⟩ 0x84000000 with dray := { host0.dray with ports := [(2, y), (3, {})] } }
/-- Its replay timer has run out often. -/
def fewReplays (s : State) : State := s.setReg ⟨.dryPortCfg, 2, 0⟩ 0x81000000
def packet (hop : BitVec 3) (path : BitVec 24) : Packet := { type := 0, hop, src := 5, dst := 7, path, body := .req { tag := 7 }, data := [] }
/-- Packet `k` is in the receive buffer of port 3. -/
def received (k : Packet) (s : State) : State :=
  (s.setReg ⟨.dryPortStat, 3, 0⟩ 0x20000000).updPort 3 fun x => { x with rx := [k] }
def creds : Sparse Nat := [(0, 9), (1, 9), (2, 9), (3, 9), (4, 9)]
/-- Routes to peer 7 through ports 2 and 3. -/
def routes (st : BitVec 32) (onAlt : List PeerId) : State :=
  let s := (portS st {}).setReg ⟨.dryRtSel, 0, 0⟩ 7
  { s with dray := { s.dray with onAlt, pri := [(7, 0x80FFFFF2)], alt := [(7, 0x80FFFFF3)] } }
def toPeer (f : Flight) (p : PeerId) : Flight := { f with way := { f.way with target := .peer p 0x5000 } }
def ackF : Flight := toPeer (flight3 hostPiece) 7
def acking (s : State) : State := { s with mem := { s.mem with acks := [ackF] } }
def changing : State := { routes 2 [] with dray := { (routes 2 []).dray with pendRt := [(7, true, 9)] } }
def peerPiece : Piece := { way := { hostWay 3 none with target := .peer 9 0x5000 }, dva := 0x123000, len := 2 }
def get64 : MemReq := ⟨0x1000, 8, .read, 0, 0xFF, false⟩
def put2 : MemReq := ⟨0x1000, 8, .write [1, 2], 0, 0xFF, false⟩
def sleepC : Nat := (asleep0.sleeps 0x1000).getD 0
def fullC : State := { asleep0 with held := List.replicate 128 ⟨sleepC, .out (.served 0 .ok [])⟩ }
/-- A collective descriptor: FORM, rank 1 of 4. -/
def coll4 (form : Nat) : List W64 :=
  [form * 2 ^ 60 + 4 * 2 ^ 53 + 7 * 2 ^ 16, 4 * 2 ^ 51 + 2 ^ 38 + 9 * 2 ^ 13 + 8 * 2, 1024, 0x120000, 0x122000].map (BitVec.ofNat 64) ++ List.replicate 11 0
/-- Quarter 1 of slot 2 and hallmark 5, its ring at DVA 0x121000. -/
def quart (w : List W64) (x : Quarter) : State :=
  let s := { host0 with xlat := { host0.xlat with contexts := [(5, 0x8000000000000000, 0x30000)] }, mem := { host0.mem with lots := [(0, 0x80000FFF)] } }
  let s := (((leafIn s 833 5 0x12 0x200C3).setReg ⟨.alyQRingCfg, 1, 0⟩ 0x80020001).setReg ⟨.alyQRingLo, 1, 0⟩ 0x121000).setFld .alyQStatus 1 29 29 1
  let s := ({ s with belfry := { s.belfry with groups := [(0, 5)], counts := [(1, 4)] } }.setFld .fmnSlotStat 2 23 12 5).setFld .fmnSlotStat 2 31 28 1
  let s := s.setKernel 2 { phase := .running, ring := 9, benches := [3] }
  { words (words s 0x21000 [1, 0, 0, 0]) 0x21080 (w.map (·.toNat)) with dray := { s.dray with quarters := [(1, { x with slot := some 2 })] } }
def collC (form : Nat) (met : Bool) : Coll := { n := 0, words := coll4 form, hmk := 5, left := 900, met }
def collS (form : Nat) (met : Bool) : State := quart (coll4 form) { coll := some (collC form met) }
/-- The bytes that a read has given. -/
def rdData : ElOut → List Byte
  | .ok d => d
  | _ => []
/-- A quarter reads its control block, and its next descriptor. -/
def cbRd (s : State) (q : HallId) : State × ElOut :=
  (s.updQuarter q fun x => { x with seen := s.bell (BitVec.ofNat 16 (s.fld .alyQRingCfg q.val 15 0)), reread := false }).quarterRead q 0 128
def dsRd (s : State) (q : HallId) : State × ElOut :=
  let cb := wordsOf 4 (rdData (cbRd s q).2)
  let s2 := (cbRd s q).1.updQuarter q fun x => { x with err := false, word3 := cb.getD 3 0 }
  let head : W32 := (cb.getD 1 0).setWidth 32
  s2.quarterRead q (128 * (1 + head.toNat % 2 ^ ringLog (s2.fld .alyQRingCfg q.val 19 16))) 128
def hot (fl : Sparse Int) (l : Sparse Nat) : State :=
  (host0.setReg ⟨.shlShopStat, 2, 0⟩ 0x04000009).updSheler fun y => { y with filt := fl, leave := l }
def shopAt (v : W32) : State := host0.setReg ⟨.shlShopStat, 2, 0⟩ v
def power (above under : Nat) (st : Nat) : State := (host0.setFld .pwrStat 0 2 0 st).updSheler fun y => { y with above, under }
def mode (m : Nat) : State := (host0.setFld .pwrStat 0 31 30 m).setReg ⟨.pwrCtl, 0, 0⟩ 5
def rule7 : State :=
  ((host0.setReg ⟨.shlRuleLo, 7, 0⟩ 0x8002012C).setReg ⟨.shlRuleHi, 7, 0⟩ 0x1002).updSheler fun y => { y with filt := [(9, 350)] }
def moulded (off : Nat) : State := { host0 with moulds := [(off, 0x80000000)] }
def postedAt (b off : Nat) (v : W32) (lot : Nat) : State := { host0 with posted := [(b, off, v, lot)] }
def carterS (n : Nat) : State := host0.setCarterFld (.bench 6) 3 31 29 n
def benchS (v : W32) : State := host0.setReg ⟨.fmnBenchCtl, 33, 0⟩ v
def fnS (v : W32) : State := host0.setReg ⟨.pexFnCtl, 3, 0⟩ v
def ringN (v : W32) : State := host0.setReg ⟨.cthRingCfg, 9, 0⟩ v
def hopperN (v : W32) : State := host0.setReg ⟨.hopStatus, 7, 0⟩ v
def firm : State := { host0 with sec := { host0.sec with current := [(2, ⟨5, 3, [1, 2], [9]⟩), (3, ⟨5, 3, [1, 2], [9]⟩)] } }
def atPhase (n : Nat) : State := (host0.updFn 0 fun x => { x with busMaster := true }).setFld .secState 0 31 28 n
def firmware : Image := ⟨5, 3, [1, 2], [9]⟩
/-- PHASE `n` with both firmware images and the runtime image in place. -/
def imaged (n : Nat) (kv : Nat) : State :=
  let s := (atPhase n).setFld .secState 0 27 27 kv
  { s with sec := { s.sec with current := [(1, firmware), (2, firmware), (3, firmware)], staged := [(2, firmware)], runtime := true, fetched := true } }
def tested (kv : Nat) : State := { imaged 4 kv with sec := { (imaged 4 kv).sec with tested := true } }
def strapped (m : BitVec 1) : State := { host0 with sec := { host0.sec with straps := { host0.sec.straps with sbmode := m } } }

/-! ## Worked examples of the manual -/

/-- 05, the FOPs of a pass: T = 14, RA = s2, RB = s3 and RND = 0, with OVW 1 and 0. 07, the preempted drain of t5. 03: the word of a reserved
opcode spells no instruction. -/
theorem test_words :
    instrOf 83 0x080708610 0 = some (.fop 83 { t := 14, ra := 2, rb := 3, fmt := 0, ovw := 1, rnd := 0 } none [])
      ∧ instrOf 83 0x080708600 0 = some (.fop 83 { t := 14, ra := 2, rb := 3 } none [])
      ∧ instrOf 83 0x08829D090 0 = some (.drain 83 { t := 5, ra := 7, rb := 8, rc := 9 } none [])
      ∧ instrOf 83 0x00B28C800 0 = none := by decide

/-- 00 R17: the riddle bits of lane 0 after SEED with 1. -/
theorem test_riddle_bits : riddleBits (riddleStep (riddleSeed 1 0)) = 0x0A21 := by decide

/-- 04 R133 and the table of roundings under it: v divided by 2 in the four modes. -/
theorem test_rounding_modes :
    ([0, 1, 2, 3] : List (BitVec 2)).map (fun m => [5, 7, -5].map (rshr m · 1)) = [[3, 4, -2], [2, 4, -2], [2, 3, -3], [3, 3, -3]] := by
  decide

/-- 04: VFRMUL of 0x4000 and 0x6001 in the four modes. -/
theorem test_vfrmul : ([0, 1, 2, 3] : List (BitVec 2)).map (rshr · (0x4000 * 0x6001) 15) = [0x3001, 0x3000, 0x3000, 0x3001] := by decide

/-- 06 table 6.10: the operands of one cell, columns in v1 and rows in v0, eight steps of BF16. -/
def cell : Bench :=
  let put (m : Memory) (b : Nat) (n : Nat) (l : List Nat) : Memory :=
    ((List.range 8).zip l).foldl (fun (m : Memory) p => m.setLe id (b + 2 * n * p.1) 2 p.2) m
  let v := put [] 4096 64 [0x3FC0, 0xC050, 0x3C00, 0x3F81, 0x3D80, 0x3DC0, 0xBD03, 0x3D90]
  { lathe := { v := put v 0 128 [0x4020, 0x3F00, 0x3F80, 0x3DD0, 0x3D10, 0x3D20, 0x3D61, 0xBD08] } }

/-- 06, one cell through two heats: the first heat leaves 0x400F0C00 and the second 0x400F28F7. -/
theorem test_two_heats :
    afterHeats cell (fentry (.fop { t := 2, fmt := 0, ovw := 1 }) 0x01000000 4 0) false 0 7 = 0x400F0C00
      ∧ afterHeats cell (fentry (.fop { t := 2, fmt := 0, ovw := 1 }) 0x01000000 8 0) false 0 7 = 0x400F28F7
      ∧ afterHeats cell (fentry (.fop { t := 2, fmt := 0, ovw := 1, rnd := 1 }) 0x01000000 8 0) false 0 7 = 0x400F28F7 := by
  decide +kernel

/-- 03, emulating a reserved opcode: bench 83 before it. -/
def muladd : State :=
  let c : Core := { running := true, pl := 0, pc := 0x1A40, loops := [⟨5, 0x1A3C, 0x1A40⟩], sregs := [(3, 7), (4, 9), (5, 100)] }
  (((on.setBench 83 { core := c }).setReg ⟨.benXjSp, 83, 0⟩ 0x1F0000).setReg ⟨.benXjSl, 83, 0⟩ 0x1E0000).setReg ⟨.benXdeleg, 83, 0⟩ 4
def reserved : Raise := { cause := { code := causeReserved }, ret := 0x1A40, word := 0x00B28C800 }

/-- 03: the handler's level, its address and its stack, and the words of the frame but for the seal. -/
theorem test_reserved_frame :
    ((muladd.raise 83 reserved).bench 83).core.pl = 1 ∧ ((muladd.raise 83 reserved).bench 83).core.xdepth = 1
      ∧ ((muladd.raise 83 reserved).bench 83).core.pc = 8 ∧ ((muladd.raise 83 reserved).bank 83 1).xsp = 0x1EFF80
      ∧ [0, 1, 3, 5, 7, 8].map ((frameWords reserved causeReserved 0 0 (muladd.status 83) 1 0 0x1F0000 (muladd.bench 83).core.loops).getD · 0)
          = [0x1A40, 0x10000, 2, 0x0B28C800, 0x1F0000, 0x1A401A3C00000005] := by
  decide +kernel

/-- 13, relieving a channel: group 3 with eight GDDR7 devices of 32 Gb and 16 units in the spread portion. -/
def group3 : State := (on.setReg ⟨.yrdGrpCfg, 3, 0⟩ 0x98000000).setReg ⟨.yrdSpread, 0, 0⟩ 0xFF000010

/-- 13 R409: the reserve, ranged and spread portions of the example. -/
theorem test_relief_group :
    group3.grpReserve 3 = 17319936 ∧ group3.grpRanged 3 = 12329156608 ∧ group3.spreadLines 3 = 4194304 := by decide +kernel

/-- 16, retargeting an aperture window: the address of PEX_AWIN9_LOT, and pour group 18. -/
theorem test_aperture_pour :
    (⟨.pexAwinLot, 9, 0⟩ : Reg).off = 0x50019C ∧ (pourNames 0x00040000 0x50019C).isSome = true
      ∧ (pourNames 0xFFFBFFFF 0x50019C).isSome = false := by decide +kernel

/-- 12, one launch through ring 219: the entry of slot 42. -/
def entry42 : SEntry :=
  { n := 42
    words := [0x1400000000005A01, 0x1004000000000010, 0x0020100020000000, 0, 0, 0, 0, 0, 0, 0x00000000FFFF0000, 0, 0, 0, 0, 0, 0, 0, 0, 0, 0,
              0x841F000000001068] }

/-- 12: its fields and its completion record. -/
theorem test_launch_record :
    entry42.type = 1 ∧ wordBits entry42.words 2 55 52 = 2 ∧ wordBits entry42.words 2 48 40 = 16 ∧ wordBits entry42.words 2 31 16 = 0x2000
      ∧ (lMask entry42.words).map (·.val) = List.range' 80 16
      ∧ (completionRec entry42 0 0 0 0).w0 ||| phaseBit 17 8 = 0x810000000000002A ∧ (completionRec entry42 0 0 0 0).w1 = 0x5A01
      ∧ (completionRec entry42 0 0 0 0).irq = true := by decide +kernel

/-- 10, a two-dimensional block load: its descriptor. -/
def block83 : List W64 :=
  [0x0590106800010000, 0x0004_1020_0800, 0x00080000, 0x0100530000000000, 0, 0x40000010, 0x40000000, 0x0000004000000040, 0x400000000,
   0, 0, 0, 0, 0, 0, 0]

/-- 10: 1,024 elements of 64 bytes, the ends of element 16r + c, and the bell. -/
theorem test_block_load :
    dCount block83 = 1024 ∧ dSize block83 = 64 ∧ dBell block83 = 4200 ∧ dInc block83 = 1 ∧ dRings block83 = true
      ∧ elemSource on 83 (run block83) 19 = 0x000410200800 + 16384 + 3 * 64
      ∧ elemTarget on 83 (run block83) 19 = 0x00080000 + 1024 + 3 * 64 := by decide +kernel

/-! ## What meets the hypotheses of each obligation -/

theorem witness_RegisterResult :
    (fun (b : BenchId) (f : FmtR) (s : State) => ready s b f.cond 1 [f.rd, f.ra, f.rb] = true) 3 { rd := 9, ra := 1, rb := 2 } (atLevel 0) := by decide +kernel

theorem witness_ImmediateResult :
    (fun (b : BenchId) (f : FmtI) (s : State) => ready s b f.cond 1 [f.rd, f.ra] = true) 3 { rd := 9, ra := 1 } (atLevel 0)
      ∧ (fun (b : BenchId) (f : FmtX) (s : State) => ready s b f.cond 2 [f.rd, f.ra] = true ∧ f.rsv = 0) 3 { rd := 9, ra := 1 } (atLevel 0)
      ∧ (fun (b : BenchId) (f : FmtSH) (s : State) => ready s b f.cond 1 [f.rd, f.ra] = true ∧ f.rsv = 0) 3 { rd := 9, ra := 1, shamt := 63 } (atLevel 0)
      ∧ (fun (b : BenchId) (f : FmtI) (s : State) => ready s b f.cond 1 [f.ra] = true ∧ f.rd = 0 ∧ f.sf = 0) 3 { ra := 1 } (atLevel 0)
      ∧ (fun (b : BenchId) (f : FmtP) (s : State) => ready s b f.cond 1 [f.ra, f.rb] = true ∧ f.rsv = 0 ∧ f.pd ≠ 0 ∧ f.rel ≠ 7) 3 { pd := 1, ra := 1, rb := 2 } (atLevel 0) := by decide +kernel

theorem witness_BenchStoreAccess :
    (fun (b : BenchId) (f : FmtM) (s : State) => ready s b f.cond 1 [f.rt, f.ra] = true ∧ storeOk s b f true = true) 3 { rt := 9, ra := 6, sz := 1, off := 0x7F0 } (atLevel 0)
      ∧ (fun (b : BenchId) (f : FmtM) (s : State) => ready s b f.cond 1 [f.rt, f.ra] = true ∧ f.sx = 0 ∧ storeOk s b f false = true) 3 { rt := 9, ra := 6, sz := 1, off := 0x7F0 } (atLevel 0) := by decide +kernel

theorem witness_ProgramStoreWrite :
    (fun (b : BenchId) (f : FmtS) (s : State) => ready s b f.cond 1 [f.rs, f.ra] = true ∧ stpAllowed s b ((s.bench b).core.rd f.ra + f.off.signExtend 64) = true) 3 { rs := 2, ra := 6, off := 0x3FF0 } (atLevel 0)
      ∧ (fun (b : BenchId) (f : FmtN) (s : State) => ready s b f.cond 1 [] = true ∧ f.rsv = 0) 3 {} (atLevel 0)
      ∧ (fun (b : BenchId) (f : FmtS) (s : State) =>
        ready s b f.cond 1 [f.rs, f.ra] = true ∧
        let c := (s.bench b).core
        let l := s.delegLevel b 0x06 c.pl
        stpAllowed s b (c.rd f.ra + f.off.signExtend 64) = false ∧ roomFor s b l = true) 3 { rs := 1, ra := 5, off := 0x40 } ((jStack { c0 with pl := 0 }).setReg ⟨.benPguard, 3, 0⟩ 0x100)
      ∧ (fun (i : Instr) (b : BenchId) (w : W36) (long : Bool) (s : State) =>
        coreWord i = some (b, w, long) ∧ s.departed = false ∧ s.canIssue b = true ∧ fetchesWord s b = true ∧
        let pc := (s.bench b).core.pc
        Sp.find (s.bench b).psErr pc.toNat = some .single) (.add 3 { rd := 9, ra := 1, rb := 2 }) 3 (((coreWord (.add 3 { rd := 9, ra := 1, rb := 2 })).getD (0, 0, false)).2.1) false (badWord (atLevel 0) .single)
      ∧ (fun (i : Instr) (b : BenchId) (w : W36) (long : Bool) (s : State) =>
        coreWord i = some (b, w, long) ∧ s.departed = false ∧ s.canIssue b = true ∧ fetchesWord s b = true ∧
        let pc := (s.bench b).core.pc
        let l := s.delegLevel b 0x04 (s.bench b).core.pl
        Sp.find (s.bench b).psErr pc.toNat = some .double ∧ roomFor s b l = true) (.add 3 { rd := 9, ra := 1, rb := 2 }) 3 (((coreWord (.add 3 { rd := 9, ra := 1, rb := 2 })).getD (0, 0, false)).2.1) false (badWord (jStack { c0 with pl := 0 }) .double) := by decide +kernel

theorem witness_TransfersAndLoops :
    (fun (b : BenchId) (f : FmtB) (s : State) => ready s b f.cond 1 [] = true ∧ f.rd = 0 ∧ f.rsv = 0) 3 {} (atLevel 0)
      ∧ (fun (b : BenchId) (f : FmtB) (s : State) => ready s b f.cond 1 [f.rd] = true ∧ f.rsv = 0) 3 {} (atLevel 0)
      ∧ (fun (b : BenchId) (f : FmtJ) (s : State) => ready s b f.cond 1 [f.rd, f.ra] = true ∧ f.rsv = 0) 3 { rd := 9, ra := 6 } (atLevel 0)
      ∧ (fun (b : BenchId) (f : FmtL) (s : State) => ready s b f.cond 1 [f.ra] = true ∧ f.rsv1 = 0 ∧ f.rsv2 = 0 ∧ loopAllowed (s.bench b).core f.len) 3 { ra := 1, len := 3 } (atLevel 0)
      ∧ (fun (b : BenchId) (f : FmtLI) (s : State) => ready s b f.cond 1 [] = true ∧ loopAllowed (s.bench b).core f.len) 3 { cnt := 0, len := 9 } (atLevel 0)
      ∧ (fun (b : BenchId) (f : FmtLP) (s : State) => ready s b f.cond 1 [] = true ∧ f.rsv = 0 ∧ f.nm1.toNat + 1 ≤ (s.bench b).core.loops.length) 3 { nm1 := 1 } inLoop := by decide +kernel

theorem witness_SpecialRegisters :
    (fun (b : BenchId) (f : FmtC) (s : State) => ready s b f.cond 1 [f.rx] = true ∧ f.rsv = 0 ∧ specialReadable (s.bench b).core f.sreg.toNat = true) 3 { sreg := 0x10, rx := 6 } (atLevel 1)
      ∧ (fun (b : BenchId) (f : FmtC) (s : State) => ready s b f.cond 1 [f.rx] = true ∧ f.rsv = 0 ∧ specialWritable s b f.sreg.toNat ((s.bench b).core.rd f.rx) = true) 3 { sreg := 0x10, rx := 6 } (atLevel 1) := by decide +kernel

theorem witness_FalseConditionIsNoOp :
    (fun (i : Instr) (b : BenchId) (w : W36) (long : Bool) (s : State) => coreWord i = some (b, w, long) ∧ unready s b (w.extractLsb' 32 4) = true) (.add 3 { cond := 1, rd := 9 }) 3 (((coreWord (.add 3 { cond := 1, rd := 9 })).getD (0, 0, false)).2.1) false (atLevel 0) := by decide +kernel

theorem witness_SynchronousCauses :
    (fun (i : Instr) (b : BenchId) (w : W36) (long : Bool) (s : State) =>
        coreWord i = some (b, w, long) ∧ ready s b (w.extractLsb' 32 4) (if long then 2 else 1) [] = true ∧ illegalIn s i = true ∧
        let l := s.delegLevel b 0x01 (s.bench b).core.pl
        roomFor s b l = true) (.shi 3 { rsv := 3 }) 3 (((coreWord (.shi 3 { rsv := 3 })).getD (0, 0, false)).2.1) false (atLevel 0)
      ∧ (fun (b : BenchId) (f : FmtM) (s : State) =>
        ready s b f.cond 1 [f.rt, f.ra] = true ∧
        let c := (s.bench b).core
        let l := s.delegLevel b 0x03 c.pl
        c.len = false ∧ (c.ea f.ra f.off).toNat % 2 ^ f.sz.toNat ≠ 0 ∧ roomFor s b l = true) 3 { rt := 9, ra := 6, sz := 1, off := 1 } (atLevel 0)
      ∧ (fun (b : BenchId) (f : FmtM) (s : State) =>
        ready s b f.cond 1 [f.rt, f.ra] = true ∧
        let c := (s.bench b).core
        let l := s.delegLevel b 0x03 c.pl
        c.len = false ∧ (c.ea f.ra f.off).toNat % 2 ^ f.sz.toNat ≠ 0 ∧ roomFor s b l = true ∧ f.sx = 0) 3 { rt := 9, ra := 6, sz := 1, off := 1 } (atLevel 0) := by decide +kernel

theorem witness_TrapEnters :
    (fun (b : BenchId) (f : FmtTrap) (s : State) =>
        ready s b f.cond 1 [] = true ∧ f.rsv = 0 ∧
        let c := (s.bench b).core
        let l : BitVec 2 := if f.tgt = 1 then 2 else if c.pl = 0 then 1 else c.pl
        roomFor s b l = true) 3 { code := 7 } (atLevel 2) := by decide +kernel

theorem witness_InterruptEntry :
    (fun (b : BenchId) (s : State) (code : Byte) =>
        s.departed = false ∧ s.canEnter b = true ∧ (s.bench b).core.stall = none ∧ onlyPending (s.bench b).core code = true ∧
        let l := if code = causePreempt then 2 else s.delegLevel b code (s.bench b).core.pl
        roomFor s b l = true) 3 noticed causeNotice
      ∧ (fun (b : BenchId) (w : W36) (s : State) =>
        ready s b (w.extractLsb' 32 4) (if opcLong w then 2 else 1) [] = true ∧ wordClass w ≠ .named ∧
        let code : Byte := if wordClass w = .illegal then 0x01 else 0x02
        let l := s.delegLevel b code (s.bench b).core.pl
        roomFor s b l = true) 3 0x0C0000000 (atLevel 0) := by decide +kernel

theorem witness_ReturnRestores :
    (fun (b : BenchId) (f : FmtReseal) (s : State) =>
        ready s b f.cond 1 [f.rd, f.ra] = true ∧ f.rsv = 0 ∧
        let c := (s.bench b).core
        c.pl ≠ 0 ∧ (c.rd f.ra).extractLsb' 0 2 ≤ c.pl ∧ (c.rd f.ra).extractLsb' 0 2 ≠ 3) 3 { rd := 9, ra := 3 } (atLevel 1) := by decide +kernel

theorem witness_DebugAndCount :
    (fun (b : BenchId) (s : State) => s.departed = false ∧ (s.bench b).core.running = true ∧ (s.bench b).core.halted = false ∧ (s.bench b).atPoint = true) 3 (atLevel 0)
      ∧ (fun (b : BenchId) (s : State) => s.departed = false ∧ (s.bench b).core.halted = true ∧ nothingCame s b) 3 halted3
      ∧ (fun (b : BenchId) (s : State) => s.departed = false ∧ (s.bench b).core.halted = true ∧ nothingCame s b) 3 halted3
      ∧ (fun (b : BenchId) (s : State) => s.departed = false ∧ (s.bench b).core.halted = true ∧ (s.reg ⟨.benDbgSel, b.val, 0⟩).getLsbD 8 = false) 3 halted3
      ∧ (fun (b : BenchId) (s : State) =>
        s.departed = false ∧ (s.bench b).core.halted = true ∧
        let sel := s.reg ⟨.benDbgSel, b.val, 0⟩
        let n := sel.toNat % 256
        sel.getLsbD 8 = true ∧ (n = 0x01 ∨ n ∈ [0x10, 0x11, 0x12] ∧ (s.bench b).core.pl ≠ 0)) 3 (haltedAt 0 1)
      ∧ (fun (b : BenchId) (s : State) =>
        s.departed = false ∧ (s.bench b).core.halted = true ∧
        let sel := s.reg ⟨.benDbgSel, b.val, 0⟩
        let n := sel.toNat % 256
        sel.getLsbD 8 = true ∧ n ∈ [0x05, 0x06, 0x07, 0x08]) 3 (haltedAt 0 5)
      ∧ (fun (b : BenchId) (s : State) => s.departed = false ∧ s.aclock b = true ∧ (s.bench b).core.countDone = false) 3 (atLevel 0) := by simp only [nothingCame_iff]; decide +kernel

theorem witness_ReturnRestores_frame :
    (fun (b : BenchId) (f : FmtRetx) (s : State) => ready s b f.cond 1 [] = true ∧ f.rsv = 0 ∧ f.adv ≠ 3 ∧ frameGood s b = true)
      3 { adv := 2 } returning := by
  have two : ∀ q : BitVec 16, (BitVec.ofNat 64 (leVal [q.extractLsb' 0 8, q.extractLsb' 8 8, 0, 0, 0, 0, 0, 0])).setWidth 16 = q := by
    intro q
    apply BitVec.eq_of_toNat_eq
    simp [leVal]
    omega
  refine ⟨by decide +kernel, by decide +kernel, by decide +kernel, ?_⟩
  unfold frameGood
  have hf : frameAddr (returning.bank 3 (returning.bench 3).core.pl).xsp = 0x1F80 := by decide +kernel
  have h1 : (returning.bench 3).frameWord 0x1F80 1 = 0 := by decide +kernel
  have hp : (returning.bench 3).storePoisoned 0x1F80 96 = false := by decide +kernel
  have hl : (returning.bench 3).core.pl = 1 := by decide +kernel
  have hd : (returning.bench 3).core.xdepth = 1 := by decide +kernel
  have h2 : (returning.bench 3).frameWord 0x1F80 2 = BitVec.ofNat 64 (leVal [(seal16 (returning.bench 3).core.xkey 0 1).extractLsb' 0 8,
      (seal16 (returning.bench 3).core.xkey 0 1).extractLsb' 8 8, 0, 0, 0, 0, 0, 0]) := rfl
  dsimp only
  rw [hf, h1, hp, hd, h2, two, hl]
  simp

theorem witness_DispatchQueues :
    (fun (b : BenchId) (i : EngInstr) (s : State) => ready s b (i.word.extractLsb' 32 4) 1 (i.reads ++ i.dest.toList) = true ∧ engLegal (s.bench b).core i = true ∧ (s.bench b).queueShut i.forge = false) 3 vadd dispatching
      ∧ (fun (b : BenchId) (i : EngInstr) (s : State) => ready s b (i.word.extractLsb' 32 4) 1 (i.reads ++ i.dest.toList) = true ∧ engLegal (s.bench b).core i = true ∧ (s.bench b).queueShut i.forge = true) 3 vadd fullQueue
      ∧ (fun (b : BenchId) (i : EngInstr) (s : State) => s.departed = false ∧ s.canIssue b = true ∧ (s.bench b).core.stall = some (.queue i) ∧ (s.bench b).queueShut i.forge = false) 3 vadd (stalled3 dispatching (.queue vadd)) := by decide +kernel

theorem witness_PairDispatch :
    (fun (b : BenchId) (i : EngInstr) (j : EngInstr) (s : State) => s.departed = false ∧ s.pairOk b i j = true) 3 vadd fop dispatching := by decide +kernel

theorem witness_ScalarResultWritten :
    (fun (b : BenchId) (r : R5) (v : W64) (s : State) => s.departed = false ∧ s.aclock b = true ∧ (s.bench b).core.results.find? (fun p => p.1 = r) = some (r, v)) 3 9 77 formed := by decide +kernel

theorem witness_DvaAccess :
    (fun (b : BenchId) (f : FmtM) (s : State) (s' : State) (g : Way) (a : Nat) =>
        ready s b f.cond 1 [f.rt, f.ra] = true ∧ f.sx = 0 ∧
        let c := (s.bench b).core
        let ea := c.ea f.ra f.off
        let n := 2 ^ f.sz.toNat
        ea.toNat % n = 0 ∧ c.onPath ea = false ∧ s.firstWatch b 1 false true 0 [(ea, n)] = none ∧ (s.withdraw (.core b)).translate (.core b) (s.benchHmk b) ea .write = (s', .ok g) ∧ coreReaches s' b g a n true) 3 { rt := 2, ra := 6, sz := 3, off := 2 } mapped ((((mapped).withdraw (.core (3))).translate (.core (3)) ((mapped).benchHmk (3)) (((mapped).bench (3)).core.ea ({ rt := 2, ra := 6, sz := 3, off := 2 } : FmtM).ra ({ rt := 2, ra := 6, sz := 3, off := 2 } : FmtM).off) .write).1) (⟨.dpa 0x23458, 0, false, 0⟩) 0x23458
      ∧ (fun (b : BenchId) (f : FmtM) (s : State) (s' : State) (g : Way) (a : Nat) (d : List Byte) =>
        ready s b f.cond 1 [f.rt, f.ra] = true ∧
        let c := (s.bench b).core
        let ea := c.ea f.ra f.off
        let n := 2 ^ f.sz.toNat
        ea.toNat % n = 0 ∧ c.onPath ea = false ∧ s.firstWatch b 1 true false 0 [(ea, n)] = none ∧ (s.withdraw (.core b)).translate (.core b) (s.benchHmk b) ea .read = (s', .ok g) ∧ g.target = .dpa a ∧ a < windowBase ∧ s'.plumb b = false ∧ (s'.bench b).cachedBytes a n = some d) 3 { rt := 2, ra := 6, sz := 3, off := 2 } mapped2 ((((mapped2).withdraw (.core (3))).translate (.core (3)) ((mapped2).benchHmk (3)) (((mapped2).bench (3)).core.ea ({ rt := 2, ra := 6, sz := 3, off := 2 } : FmtM).ra ({ rt := 2, ra := 6, sz := 3, off := 2 } : FmtM).off) .read).1) (⟨.dpa 0x23458, 0, false, 0⟩) 0x23458 ((List.range 8).map fun k => BitVec.ofNat 8 (k + 24))
      ∧ (fun (b : BenchId) (s : State) (acc : Access) (rd : R5) (sx : Bool) (p : Piece) (a : Nat) => stalledIn s b (.response acc [p]) ∧ acc.kind = .load rd sx ∧ coreReaches s b p.way a p.len false ∧ p.cut = false ∧ (∀ r ∈ s.xlat.replies, r.flight.who.eng ≠ .core b) ∧ (s.bench b).cached 1 (a / 64) = false ∧ (s.shopCache (shopOf b)).find? (fun l => l.line = a / 128) = none) 3 (stalled3 mapped (.response loading [piece])) loading 9 true piece 0x23460 := by unfold coreReaches stalledIn; decide +kernel

theorem witness_AtomicInStore :
    (fun (e : AtomRow) (b : BenchId) (f : FmtAtom) (s : State) =>
        ready (s.unfence b (f.word 0x26 e.aop)) b f.cond 1 [f.rd, f.ra, f.rb] = true ∧ f.mo.toNat < 6 ∧ f.sp = 0 ∧ (e.aop = 12 → f.rd = 0) ∧ (e.aop = 11 → f.rb = 0) ∧ (f.mo ≠ 0 → waitSetEmpty s b false false (f.mo == 5) = true) ∧
        let c := (s.bench b).core
        let n := if f.sz = 1 then 8 else 4
        let off := (c.rd f.ra).toNat % 0x200000
        off % n = 0 ∧ s.watchpoint b 0 off n true true = none ∧ s.guarded b c.pl off n = false ∧ (s.bench b).storePoisoned off n = false) (atomRows.getLast (by decide)) 3 { rd := 0, ra := 5, rb := 0, sz := 1, mo := 3 } dispatching := by decide +kernel

theorem witness_FencesAndCaches :
    (fun (e : (BenchId → FmtFence → Instr) × BitVec 3) (b : BenchId) (f : FmtFence) (s : State) => ready (s.unfence b (f.word 0x3C e.2)) b f.cond 1 [] = true ∧ f.rsv = 0 ∧ waitSetEmpty s b (f.lq == 1) (f.fq == 1) (e.2 == 4) = true) (fenceRows.getLast (by decide)) 3 { fq := 1 } dispatching
      ∧ (fun (e : (BenchId → FmtFence → Instr) × BitVec 3) (b : BenchId) (f : FmtFence) (s : State) => ready s b f.cond 1 [] = true ∧ f.rsv = 0 ∧ waitSetEmpty s b (f.lq == 1) (f.fq == 1) (e.2 == 4) = false) (fenceRows.getLast (by decide)) 3 { lq := 1 } fullQueue
      ∧ (fun (b : BenchId) (w : W36) (s : State) =>
        stalledIn s b (.fence w) ∧
        let l := s.delegLevel b 0x04 (s.bench b).core.pl
        roomFor s b l = true) 3 0 (stalled3 busyLathe (.fence 0))
      ∧ (fun (b : BenchId) (acc : Access) (rd : R5) (sx : Bool) (ps : List Piece) (s : State) =>
        stalledIn s b (.response acc ps) ∧ acc.kind = .load rd sx ∧
        let l := s.delegLevel b 0x04 (s.bench b).core.pl
        roomFor s b l = true) 3 loading 9 true [piece] (stalled3 mapped (.response loading [piece]))
      ∧ (fun (b : BenchId) (f : FmtCinv) (s : State) => ready s b f.cond 1 [f.ra, f.rb] = true ∧ f.rsv1 = 0 ∧ f.rsv2 = 0 ∧ f.lvl ≠ 3 ∧ (f.lvl = 0 → f.ra = 0 ∧ f.rb = 0)) 3 { lvl := 1, ra := 6, rb := 1 } dispatching := by unfold stalledIn; decide +kernel

theorem witness_Bells :
    (fun (b : BenchId) (f : FmtRing) (s : State) (op : BitVec 2) =>
        f.scope.toNat < 5 ∧ ready (s.unfence b (f.word 0x38 op)) b f.cond 1 [f.ra, f.rb] = true ∧ waitSetEmpty s b false false (f.scope == 4) = true ∧
        let c := (s.bench b).core
        let n : BitVec 16 := (c.rd f.ra).setWidth 16
        s.bellAllows (s.benchHmk b) n = true ∧ op = 0) 3 { scope := 4, ra := 1, rb := 2, imm := 5 } dispatching 0
      ∧ (fun (b : BenchId) (f : FmtRing) (s : State) (op : BitVec 2) =>
        f.scope.toNat < 5 ∧ ready (s.unfence b (f.word 0x38 op)) b f.cond 1 [f.ra, f.rb] = true ∧ waitSetEmpty s b false false (f.scope == 4) = true ∧
        let c := (s.bench b).core
        let n : BitVec 16 := (c.rd f.ra).setWidth 16
        s.bellAllows (s.benchHmk b) n = true ∧ op = 1) 3 { scope := 4, ra := 1, rb := 2, imm := 5 } dispatching 1
      ∧ (fun (b : BenchId) (f : FmtRing) (s : State) (op : BitVec 2) =>
        f.scope.toNat < 5 ∧ ready (s.unfence b (f.word 0x38 op)) b f.cond 1 [f.ra, f.rb] = true ∧ waitSetEmpty s b false false (f.scope == 4) = true ∧
        let c := (s.bench b).core
        let n : BitVec 16 := (c.rd f.ra).setWidth 16
        s.bellAllows (s.benchHmk b) n = true ∧ op = 2) 3 { scope := 4, ra := 1, rb := 2, imm := 5 } dispatching 2
      ∧ (fun (b : BenchId) (f : FmtWait) (s : State) =>
        f.scope.toNat < 5 ∧ f.rsv1 = 0 ∧ f.rsv2 = 0 ∧ ready s b f.cond 1 [f.ra, f.rb] = true ∧
        let c := (s.bench b).core
        let n : BitVec 16 := (c.rd f.ra).setWidth 16
        let g : W32 := (c.rd f.rb).setWidth 32
        s.bellAllows (s.benchHmk b) n = true ∧ met (s.bell n) g = true) 3 { ra := 1, rb := 5 } dispatching
      ∧ (fun (b : BenchId) (f : FmtWait) (s : State) =>
        f.scope.toNat < 5 ∧ f.rsv1 = 0 ∧ f.rsv2 = 0 ∧ ready s b f.cond 1 [f.ra, f.rb] = true ∧
        let c := (s.bench b).core
        let n : BitVec 16 := (c.rd f.ra).setWidth 16
        let g : W32 := (c.rd f.rb).setWidth 32
        s.bellAllows (s.benchHmk b) n = true ∧ met (s.bell n) g = false) 3 { ra := 1, rb := 7 } dispatching
      ∧ (fun (b : BenchId) (f : FmtWait) (s : State) =>
        f.scope.toNat < 5 ∧ f.rsv1 = 0 ∧ f.rsv2 = 0 ∧ ready s b f.cond 1 [f.ra, f.rb] = true ∧
        let c := (s.bench b).core
        let n : BitVec 16 := (c.rd f.ra).setWidth 16
        s.bellAllows (s.benchHmk b) n = true) 3 { ra := 1, rb := 5 } dispatching
      ∧ (fun (b : BenchId) (f : FmtPeal) (s : State) =>
        f.scope.toNat < 5 ∧ f.rsv1 = 0 ∧ f.rsv2 = 0 ∧ ready (s.unfence b (f.word 0x3A)) b f.cond 1 [f.ra, f.rb, f.rd] = true ∧ waitSetEmpty s b false false (f.scope == 4) = true ∧
        let c := (s.bench b).core
        let n : BitVec 16 := (c.rd f.ra).setWidth 16
        s.bellAllows (s.benchHmk b) n = true) 3 { ra := 1, rb := 7, rd := 9 } dispatching
      ∧ (fun (b : BenchId) (n : BitVec 16) (g : W32) (w : W36) (sc : BitVec 3) (rd : Option R5) (s : State) => stalledIn s b (.bell n g w sc rd) ∧ met (s.bell n) g = true ∧ cleanWords (s.bench b) 0 = true) 3 7 5 0 0 (some 9) (stalled3 belled (.bell 7 5 0 0 (some 9)))
      ∧ (fun (b : BenchId) (n : BitVec 16) (g : W32) (sc : BitVec 3) (s : State) => s.departed = false ∧ (s.bench b).watch = some (n, g, sc) ∧ met (s.bell n) g = true) 3 7 5 0 (changed belled fun x => { x with watch := some (7, 5, 0) })
      ∧ (fun (s : State) => s.departed = false) dispatching := by unfold stalledIn; decide +kernel

theorem witness_Chimes :
    (fun (b : BenchId) (f : FmtChime) (s : State) =>
        f.scope = 4 ∧ f.rsv1 = 0 ∧ ready (s.unfence b (f.word 0x3B)) b f.cond 1 [f.ra, f.rb] = true ∧ waitSetEmpty s b false false true = true ∧
        let c := (s.bench b).core
        let n : BitVec 16 := (c.rd f.ra).setWidth 16
        let p : PeerId := (c.rd f.ra).extractLsb' 16 12
        p = s.ownPeer ∧ s.bellAllows (s.benchHmk b) n = true) 3 { scope := 4, ra := 5, rb := 1 } dispatching
      ∧ (fun (b : BenchId) (f : FmtChime) (s : State) =>
        f.scope = 4 ∧ f.rsv1 = 0 ∧ ready (s.unfence b (f.word 0x3B)) b f.cond 1 [f.ra, f.rb] = true ∧ waitSetEmpty s b false false true = true ∧
        let c := (s.bench b).core
        let p : PeerId := (c.rd f.ra).extractLsb' 16 12
        p ≠ s.ownPeer ∧ s.reachable p = true) 3 { scope := 4, ra := 6, rb := 1, imm := 3 } linked
      ∧ (fun (p : PeerId) (q : W32) (r : Bool) (h : BitVec 12) (n : BitVec 16) (v : W32) (s : State) =>
        s.departed = false ∧ s.rootOn = true ∧
        let new := r = true ∧ Sp.find s.belfry.resynced p.toNat ≠ some q
        (new ∨ q = s.expectSeq p) ∧ s.bellAllows h n = true ∧ (s.group n).getLsbD 30 = false) 2 5 true 0 7 5 dispatching
      ∧ (fun (p : PeerId) (q : W32) (r : Bool) (h : BitVec 12) (n : BitVec 16) (v : W32) (s : State) =>
        s.departed = false ∧ s.rootOn = true ∧
        let new := r = true ∧ Sp.find s.belfry.resynced p.toNat ≠ some q
        ¬ new ∧ q ≠ s.expectSeq p ∧ met (s.expectSeq p) q = true) 2 0 false 0 7 5 chimed
      ∧ (fun (p : PeerId) (q : W32) (r : Bool) (h : BitVec 12) (n : BitVec 16) (v : W32) (s : State) =>
        s.departed = false ∧ s.rootOn = true ∧
        let new := r = true ∧ Sp.find s.belfry.resynced p.toNat ≠ some q
        ¬ new ∧ q ≠ s.expectSeq p ∧ met (s.expectSeq p) q = false) 2 9 false 0 7 5 dispatching
      ∧ (fun (p : PeerId) (q : W32) (b : BenchId) (s : State) => s.departed = false ∧ s.rootOn = true ∧ (∃ k ∈ s.belfry.sent, k.peer = p ∧ k.seq = q) ∧ s.chimeWaiter p q = some b ∧ s.coreHeld b = false ∧ cleanWords (s.bench b) 0 = true) 2 1 3 (stalled3 chimed (.chime 2 1 0 0x20003))
      ∧ (fun (b : BenchId) (p : PeerId) (q : W32) (w : W36) (a : W64) (s : State) =>
        stalledIn s b (.chime p q w a) ∧
        let l := s.delegLevel b 0x04 (s.bench b).core.pl
        roomFor s b l = true) 3 2 1 0 77 (stalled3 chimed (.chime 2 1 0 77))
      ∧ (fun (p : PeerId) (s : State) => s.departed = false ∧ s.rootOn = true ∧ (∀ k ∈ s.belfry.sent, k.peer = p → k.tries < s.fld .dryE2e 0 7 0)) 2 (chimed.setReg ⟨.dryE2e, 0, 0⟩ 0x08400008) := by unfold stalledIn; decide +kernel

theorem witness_LatheElementwise :
    (fun (op : VvOp) (b : BenchId) (f : FmtVV) (p : Pace) (e : Entry) (s : State) => latheHeads s b (.vv op f) e ∧ unhindered p ∧ ((∃ fp, op.kind = .arith fp) ∨ op.kind ∈ [VvKind.sqrt, .unary, .clip, .move])) .vadd 3 { vd := 1, va := 2, vb := 3 } {} (entry (.vv (.vadd : VvOp) ({ vd := 1, va := 2, vb := 3 } : FmtVV)) 0x1003 2) (latheAt vector1 (entry (.vv (.vadd : VvOp) ({ vd := 1, va := 2, vb := 3 } : FmtVV)) 0x1003 2))
      ∧ (fun (op : VvOp) (b : BenchId) (f : FmtVV) (p : Pace) (e : Entry) (s : State) => latheHeads s b (.vv op f) e ∧ unhindered p ∧ op.kind = .merge) .vmerge 3 { vd := 1, va := 2, vb := 3 } {} (entry (.vv (.vmerge : VvOp) ({ vd := 1, va := 2, vb := 3 } : FmtVV)) 0x1003 2) (latheAt vector1 (entry (.vv (.vmerge : VvOp) ({ vd := 1, va := 2, vb := 3 } : FmtVV)) 0x1003 2))
      ∧ (fun (op : VvOp) (b : BenchId) (f : FmtVV) (p : Pace) (e : Entry) (s : State) => latheHeads s b (.vv op f) e ∧ unhindered p ∧ op.kind = .index) .vid 3 { vd := 1, va := 2, vb := 3 } {} (entry (.vv (.vid : VvOp) ({ vd := 1, va := 2, vb := 3 } : FmtVV)) 0x1003 2) (latheAt vector1 (entry (.vv (.vid : VvOp) ({ vd := 1, va := 2, vb := 3 } : FmtVV)) 0x1003 2)) := by
  dsimp only [latheHeads]
  repeat' apply And.intro
  all_goals first | decide +kernel | simp

theorem witness_LatheElementValues :
    (fun (k : VCtl) => k.w ∈ [8, 16, 32, 64]) (⟨8, false, 0, 0⟩)
      ∧ (fun (k : VCtl) => k.w ∈ [8, 16, 32, 64]) (⟨8, false, 0, 0⟩)
      ∧ (fun (k : VCtl) (a : BitVec k.w) (b : BitVec k.w) (d : Nat) => k.w ∈ [8, 16, 32, 64]) (⟨8, false, 0, 0⟩) 0 3 0 := by decide +kernel

theorem witness_LatheMasks :
    (fun (op : VvOp) (b : BenchId) (f : FmtVV) (p : Pace) (e : Entry) (s : State) => latheHeads s b (.vv op f) e ∧ unhindered p ∧ (s.bench b).lathe.vl ≤ 32768 ∧ (∃ fp, op.kind = .compare fp)) .vceq 3 { vd := 1, va := 2, vb := 3 } {} (entry (.vv (.vceq : VvOp) ({ vd := 1, va := 2, vb := 3 } : FmtVV)) 0x1003 2) (latheAt vector1 (entry (.vv (.vceq : VvOp) ({ vd := 1, va := 2, vb := 3 } : FmtVV)) 0x1003 2))
      ∧ (fun (op : VvOp) (b : BenchId) (f : FmtVV) (p : Pace) (e : Entry) (s : State) (r : VvOp × (Bool → Bool → Bool)) => latheHeads s b (.vv op f) e ∧ unhindered p ∧ (s.bench b).lathe.vl ≤ 32768 ∧ op = r.1) .mand 3 { vd := 1, va := 2, vb := 3 } {} (entry (.vv (.mand : VvOp) ({ vd := 1, va := 2, vb := 3 } : FmtVV)) 0x1003 2) (latheAt vector1 (entry (.vv (.mand : VvOp) ({ vd := 1, va := 2, vb := 3 } : FmtVV)) 0x1003 2)) (maskRows.head (by decide)) := by
  dsimp only [latheHeads]
  repeat' apply And.intro
  all_goals first | decide +kernel | simp

theorem witness_LatheReductions :
    (fun (op : VvOp) (b : BenchId) (f : FmtVV) (p : Pace) (e : Entry) (s : State) => latheHeads s b (.vv op f) e ∧ unhindered p ∧ (∃ fp, op.kind = .reduce fp)) .vrsum 3 { vd := 1, va := 2, vb := 3 } {} (entry (.vv (.vrsum : VvOp) ({ vd := 1, va := 2, vb := 3 } : FmtVV)) 0x1003 2) (latheAt vector1 (entry (.vv (.vrsum : VvOp) ({ vd := 1, va := 2, vb := 3 } : FmtVV)) 0x1003 2))
      ∧ (fun (op : VvOp) (b : BenchId) (f : FmtVV) (p : Pace) (e : Entry) (s : State) => latheHeads s b (.vv op f) e ∧ unhindered p ∧ op = .vins) .vins 3 { vd := 1, va := 2, vb := 3 } {} (entry (.vv (.vins : VvOp) ({ vd := 1, va := 2, vb := 3 } : FmtVV)) 0x1003 2) (latheAt vector1 (entry (.vv (.vins : VvOp) ({ vd := 1, va := 2, vb := 3 } : FmtVV)) 0x1003 2)) := by
  dsimp only [latheHeads]
  repeat' apply And.intro
  all_goals first | decide +kernel | simp

theorem witness_LatheScalars :
    (fun (op : VvOp) (b : BenchId) (f : FmtVV) (p : Pace) (e : Entry) (s : State) => latheHeads s b (.vv op f) e ∧ unhindered p ∧ op ∈ [VvOp.vmpop, .vmfirst, .vext]) .vext 3 { vd := 1, va := 2, vb := 3 } {} (entry (.vv (.vext : VvOp) ({ vd := 1, va := 2, vb := 3 } : FmtVV)) 0x1003 2) (latheAt vector1 (entry (.vv (.vext : VvOp) ({ vd := 1, va := 2, vb := 3 } : FmtVV)) 0x1003 2))
      ∧ (fun (b : BenchId) (f : FmtVC) (e : Entry) (s : State) => latheHeads s b (.vcsr f) e ∧ f.csr.toNat ≤ 7) 3 { rd := 9, csr := 7, w := 1 } (entry (.vcsr ({ rd := 9, csr := 7, w := 1 } : FmtVC)) 1 2) (latheAt vector1 (entry (.vcsr ({ rd := 9, csr := 7, w := 1 } : FmtVC)) 1 2))
      ∧ (fun (b : BenchId) (f : FmtVS) (e : Entry) (s : State) => latheHeads s b (.vsetl f) e) 3 { rd := 9, ra := 1 } (entry (.vsetl ({ rd := 9, ra := 1 } : FmtVS)) 4096 0) (latheAt vector1 (entry (.vsetl ({ rd := 9, ra := 1 } : FmtVS)) 4096 0)) := by
  dsimp only [latheHeads]
  repeat' apply And.intro
  all_goals first | decide +kernel | simp

theorem witness_LatheConversions :
    (fun (b : BenchId) (f : FmtVX) (p : Pace) (e : Entry) (s : State) => latheHeads s b (.vcvt f) e ∧ unhindered p) 3 { vd := 1, va := 2, dfmt := 2, sfmt := 0 } {} (entry (.vcvt ({ vd := 1, va := 2, dfmt := 2, sfmt := 0 } : FmtVX)) 0x1003 2) (latheAt vector1 (entry (.vcvt ({ vd := 1, va := 2, dfmt := 2, sfmt := 0 } : FmtVX)) 0x1003 2))
      ∧ (fun (b : BenchId) (f : FmtVT) (p : Pace) (e : Entry) (s : State) => latheHeads s b (.vtld f) e ∧ unhindered p) 3 { vd := 1, ra := 1, t := 2 } {} { entry (.vtld ({ vd := 1, ra := 1, t := 2 } : FmtVT)) 8191 0 with sew := 2 } (latheAt vector1 ({ entry (.vtld ({ vd := 1, ra := 1, t := 2 } : FmtVT)) 8191 0 with sew := 2 } : Entry))
      ∧ (fun (b : BenchId) (f : FmtVT) (p : Pace) (e : Entry) (s : State) => latheHeads s b (.vtst f) e ∧ unhindered p ∧ (s.bench b).lathe.vl ≤ 8192) 3 { vd := 1, ra := 1, t := 2 } {} { entry (.vtst ({ vd := 1, ra := 1, t := 2 } : FmtVT)) 8191 0 with sew := 2 } (latheAt { vector1 with vl := 8192 } ({ entry (.vtst ({ vd := 1, ra := 1, t := 2 } : FmtVT)) 8191 0 with sew := 2 } : Entry))
      ∧ (fun (op : VvOp) (b : BenchId) (f : FmtVV) (g : Nat) (e : Entry) (s : State) => latheHeads s b (.vv op f) e ∧ (∃ fp, op.kind = .arith fp) ∧ (s.bench b).lathe.vpi / groupElems (sewBits e.sew) ≤ g ∧ g * groupElems (sewBits e.sew) < (s.bench b).lathe.vl) .vadd 3 { vd := 1, va := 2, vb := 3 } 0 (entry (.vv (.vadd : VvOp) ({ vd := 1, va := 2, vb := 3 } : FmtVV)) 0x1003 2) (latheAt vector1 (entry (.vv (.vadd : VvOp) ({ vd := 1, va := 2, vb := 3 } : FmtVV)) 0x1003 2))
      ∧ (fun (op : VvOp) (b : BenchId) (f : FmtVV) (n : Nat) (e : Entry) (s : State) =>
        latheHeads s b (.vv op f) e ∧ (∃ fp, op.kind = .arith fp) ∧ 0 < n ∧
        let l := (s.bench b).lathe
        let w := sewBits e.sew
        let k := (l.vpi / (8192 / w) + n) * (8192 / w)
        k < l.vl) .vadd 3 { vd := 1, va := 2, vb := 3 } 1 (entry (.vv (.vadd : VvOp) ({ vd := 1, va := 2, vb := 3 } : FmtVV)) 0x1003 2) (latheAt { vector1 with vl := 1500 } (entry (.vv (.vadd : VvOp) ({ vd := 1, va := 2, vb := 3 } : FmtVV)) 0x1003 2)) := by
  dsimp only [latheHeads]
  repeat' apply And.intro
  all_goals first | decide +kernel | simp

theorem witness_LatheMemory :
    (fun (op : VmOp) (b : BenchId) (f : FmtVM) (e : Entry) (s : State) => latheHeads s b (.vm op f) e ∧ f.sp = 0 ∧ (∀ i ∈ remaining (s.bench b).lathe f.ms, elemOk s b op e f i = true) ∧ op.stores = true ∧ s.portHolds (.lathe b) = false) .vst 3 { vd := 1, ra := 1 } (entry (.vm (.vst : VmOp) ({ vd := 1, ra := 1 } : FmtVM)) 0x1FFFFE 0) ((latheAt vector1 (entry (.vm (.vst : VmOp) ({ vd := 1, ra := 1 } : FmtVM)) 0x1FFFFE 0)))
      ∧ (fun (op : VmOp) (b : BenchId) (f : FmtVM) (e : Entry) (s : State) =>
        latheHeads s b (.vm op f) e ∧ f.sp = 0 ∧ (∀ i ∈ remaining (s.bench b).lathe f.ms, elemOk s b op e f i = true) ∧
        let l := (s.bench b).lathe
        op.stores = false ∧ (op.indexed = true → elemAt f.vd.toNat l.vl (sewBits e.sew) ≤ f.rb.toNat * 4096 ∨ elemAt f.rb.toNat l.vl (if f.ix = 1 then 64 else 32) ≤ f.vd.toNat * 4096)) .vlds 3 { vd := 1, ra := 1, rb := 2 } (entry (.vm (.vlds : VmOp) ({ vd := 1, ra := 1, rb := 2 } : FmtVM)) 0x1008 24) ((latheAt vector1 (entry (.vm (.vlds : VmOp) ({ vd := 1, ra := 1, rb := 2 } : FmtVM)) 0x1008 24)))
      ∧ (fun (op : VmOp) (b : BenchId) (f : FmtVM) (e : Entry) (s : State) =>
        latheHeads s b (.vm op f) e ∧ f.sp = 0 ∧ op ∈ [VmOp.vld, .vlds] ∧
        let l := (s.bench b).lathe
        let n := sewBits e.sew / 8
        let a := vmAddr op e f l l.vpi
        l.vpi < l.vl ∧ l.active f.ms l.vpi = true ∧ a.toNat % n = 0 ∧ s.guarded b e.level (a.toNat % 0x200000) n = true) .vld 3 { vd := 1, ra := 1 } (entry (.vm (.vld : VmOp) ({ vd := 1, ra := 1 } : FmtVM)) 0x1008 0) ((latheAt vector1 (entry (.vm (.vld : VmOp) ({ vd := 1, ra := 1 } : FmtVM)) 0x1008 0)).setReg ⟨.benSguardM, 3, 0⟩ 0x00080000)
      ∧ (fun (b : BenchId) (f : FmtVM) (e : Entry) (s : State) (k : Nat) =>
        latheHeads s b (.vm .vgathFf f) e ∧ f.sp = 0 ∧
        let l := (s.bench b).lathe
        let a := vmAddr .vgathFf e f l k
        l.vpi = k ∧ k < l.vl ∧ l.active f.ms k = true ∧ (∃ j, j < k ∧ l.active f.ms j = true) ∧ a.toNat % (sewBits e.sew / 8) ≠ 0) 3 { vd := 1, ra := 1, rb := 2 } { entry (.vm .vgathFf ({ vd := 1, ra := 1, rb := 2 } : FmtVM)) 0x1008 0 with sew := 2 } (latheAt { vector1 with v := [(8192, 8), (8196, 25)], vpi := 1 } ({ entry (.vm .vgathFf ({ vd := 1, ra := 1, rb := 2 } : FmtVM)) 0x1008 0 with sew := 2 } : Entry)) 1
      ∧ (fun (op : VmOp) (b : BenchId) (f : FmtVM) (e : Entry) (s : State) (s' : State) (k : Nat) (g : Way) (a : Nat) =>
        latheHeads s b (.vm op f) e ∧ f.sp = 1 ∧
        let l := (s.bench b).lathe
        let n := sewBits e.sew / 8
        let dva := vmAddr op e f l k
        remaining l f.ms = [k] ∧ l.vpi = k ∧ l.vl = k + 1 ∧ dva.toNat % n = 0 ∧ (∀ r ∈ s.xlat.replies, r.flight.who.eng ≠ .lathe b) ∧ (∀ r ∈ s.xlat.flights, r.who.eng ≠ .lathe b) ∧ (∀ h ∈ s.held, h.reply?.all (fun r => r.flight.who.eng != .lathe b) = true) ∧ s.translate (.lathe b) (s.benchHmk b) dva (if op.stores then .write else .read) true = (s', .ok g) ∧ coreReaches s' b g a n op.stores ∧ op.stores = true ∧ s.portHolds (.lathe b) = false) .vst 3 { vd := 1, ra := 1, sp := 1 } (entry (.vm (.vst : VmOp) ({ vd := 1, ra := 1, sp := 1 } : FmtVM)) 0x123460 0) (latheMapped (entry (.vm (.vst : VmOp) ({ vd := 1, ra := 1, sp := 1 } : FmtVM)) 0x123460 0)) (((latheMapped (entry (.vm (.vst : VmOp) ({ vd := 1, ra := 1, sp := 1 } : FmtVM)) 0x123460 0)).translate (.lathe (3)) ((latheMapped (entry (.vm (.vst : VmOp) ({ vd := 1, ra := 1, sp := 1 } : FmtVM)) 0x123460 0)).benchHmk (3)) (vmAddr (.vst : VmOp) (entry (.vm (.vst : VmOp) ({ vd := 1, ra := 1, sp := 1 } : FmtVM)) 0x123460 0) ({ vd := 1, ra := 1, sp := 1 } : FmtVM) ((latheMapped (entry (.vm (.vst : VmOp) ({ vd := 1, ra := 1, sp := 1 } : FmtVM)) 0x123460 0)).bench (3)).lathe 0) (if (.vst : VmOp).stores then .write else .read) true).1) 0 (⟨.dpa 0x23460, 0, false, 0⟩) 0x23460
      ∧ (fun (op : VmOp) (b : BenchId) (f : FmtVM) (e : Entry) (s : State) (s' : State) (k : Nat) (g : Way) (a : Nat) =>
        latheHeads s b (.vm op f) e ∧ f.sp = 1 ∧
        let l := (s.bench b).lathe
        let n := sewBits e.sew / 8
        let dva := vmAddr op e f l k
        remaining l f.ms = [k] ∧ l.vpi = k ∧ l.vl = k + 1 ∧ dva.toNat % n = 0 ∧ (∀ r ∈ s.xlat.replies, r.flight.who.eng ≠ .lathe b) ∧ (∀ r ∈ s.xlat.flights, r.who.eng ≠ .lathe b) ∧ (∀ h ∈ s.held, h.reply?.all (fun r => r.flight.who.eng != .lathe b) = true) ∧ s.translate (.lathe b) (s.benchHmk b) dva (if op.stores then .write else .read) true = (s', .ok g) ∧ coreReaches s' b g a n op.stores ∧ op.stores = false ∧ (s.shopCache (shopOf b)).find? (fun x => x.line = a / 128) = none) .vld 3 { vd := 1, ra := 1, sp := 1 } (entry (.vm (.vld : VmOp) ({ vd := 1, ra := 1, sp := 1 } : FmtVM)) 0x123460 0) (latheMapped (entry (.vm (.vld : VmOp) ({ vd := 1, ra := 1, sp := 1 } : FmtVM)) 0x123460 0)) (((latheMapped (entry (.vm (.vld : VmOp) ({ vd := 1, ra := 1, sp := 1 } : FmtVM)) 0x123460 0)).translate (.lathe (3)) ((latheMapped (entry (.vm (.vld : VmOp) ({ vd := 1, ra := 1, sp := 1 } : FmtVM)) 0x123460 0)).benchHmk (3)) (vmAddr (.vld : VmOp) (entry (.vm (.vld : VmOp) ({ vd := 1, ra := 1, sp := 1 } : FmtVM)) 0x123460 0) ({ vd := 1, ra := 1, sp := 1 } : FmtVM) ((latheMapped (entry (.vm (.vld : VmOp) ({ vd := 1, ra := 1, sp := 1 } : FmtVM)) 0x123460 0)).bench (3)).lathe 0) (if (.vld : VmOp).stores then .write else .read) true).1) 0 (⟨.dpa 0x23460, 0, false, 0⟩) 0x23460
      ∧ (fun (op : VmOp) (b : BenchId) (f : FmtVM) (n : Nat) (e : Entry) (s : State) =>
        latheHeads s b (.vm op f) e ∧ f.sp = 0 ∧ (∀ i ∈ remaining (s.bench b).lathe f.ms, elemOk s b op e f i = true) ∧
        let l := (s.bench b).lathe
        l.vpi + n < l.vl ∧ (op.indexed = true → elemAt f.vd.toNat l.vl (sewBits e.sew) ≤ f.rb.toNat * 4096 ∨ elemAt f.rb.toNat l.vl (if f.ix = 1 then 64 else 32) ≤ f.vd.toNat * 4096)) .vld 3 { vd := 1, ra := 1 } 2 (entry (.vm (.vld : VmOp) ({ vd := 1, ra := 1 } : FmtVM)) 0x1008 0) ((latheAt vector1 (entry (.vm (.vld : VmOp) ({ vd := 1, ra := 1 } : FmtVM)) 0x1008 0))) := by
  dsimp only [coreReaches, latheHeads]
  repeat' apply And.intro
  all_goals first | decide +kernel | simp

theorem witness_IntegerProduct :
    (fun (b : BenchId) (f : FmtF) (e : Entry) (s : State) => forgeHeads s b (.fop f) e ∧ arrayIdle s b ∧ (s.bench b).forge.inject = false ∧ (s.bench b).arrayFault e = none ∧ e.k ≠ 0 ∧ f.fmt = 7 ∧ f.clamp = 0 ∧ f.wide = 0) 3 { t := 2, fmt := 7 } (fentry (.fop ({ t := 2, fmt := 7 } : FmtF)) 0x0000000001000000 4 0) (forge3 (heads (fentry (.fop ({ t := 2, fmt := 7 } : FmtF)) 0x0000000001000000 4 0))) := by unfold forgeHeads arrayIdle; decide +kernel

theorem witness_PlateLoadAndSeed :
    (fun (b : BenchId) (f : FmtPL) (e : Entry) (s : State) (queued : Bool) =>
        (s.bench b).forge.loader = none ∧ (s.bench b).storeFree e = true ∧ (if queued then forgeHeads s b (.pload f) e ∧ (s.bench b).forge.loaderNext = none else s.departed = false ∧ s.forgeRuns b = true ∧ (s.bench b).forge.loaderNext = some e ∧ e.instr = .pload f ∧ (s.bench b).forge.arrayNext = none ∧ (s.bench b).forge.ladleNext = none ∧ (s.bench b).forge.queue = [] ∧ (s.bench b).freeToBegin e = true) ∧ ploadFault e = none ∧
        let x := s.bench b
        let d := plateDesc e.b
        let len := 128 * 2 ^ d.pcl.toNat * (4 * 2 ^ d.we.toNat) / 8
        let at_ := fun n => (e.a.toNat + n * d.stride) % 0x200000
        (∀ n, n < d.nrow → s.guarded b e.level (at_ n) len = false ∧ x.storePoisoned (at_ n) len = false)) 3 { ra := 1, rb := 2 } ploadEntry (forge3 (heads (ploadEntry))) true
      ∧ (fun (b : BenchId) (f : FmtSeed) (e : Entry) (s : State) => forgeHeads s b (.seed f) e ∧ arrayIdle s b) 3 { ra := 1 } (fentry (.seed { ra := 1 }) 0x12345678 0 0) (forge3 (heads (fentry (.seed { ra := 1 }) 0x12345678 0 0)))
      ∧ (fun (b : BenchId) (f : FmtTS) (e : Entry) (s : State) => forgeHeads s b (.tsync f) e ∧ wbits e.a 63 34 = 0 ∧ (∀ d ∈ (s.bench b).forge.accessing ++ (s.bench b).lathe.queue, d.seq < e.seq → tsyncWaits e.a d = false)) 3 { ra := 1, rd := 9 } (fentry (.tsync { ra := 1, rd := 9 }) 3 0 0) (forge3 (heads (fentry (.tsync { ra := 1, rd := 9 }) 3 0 0))) := by unfold forgeHeads arrayIdle; decide +kernel

theorem witness_LadleDrain :
    (fun (clear : Bool) (b : BenchId) (f : FmtD) (e : Entry) (s : State) =>
        forgeHeads s b (.drain clear f) e ∧ ladleIdle s b ∧ (s.bench b).storeFree e = true ∧
        let d := e.drain clear f
        s.drainFault b e d = none ∧ fusedClean (s.bench b) d ∧ d.dk < 2) true 3 { t := 2, ra := 4, rb := 2, rc := 3 } (drainEntry 3 0x4D20000000) (forge3 (heads (drainEntry 3 0x4D20000000))) := by unfold forgeHeads ladleIdle fusedClean; decide +kernel

theorem witness_LadleHandoff :
    (fun (b : BenchId) (o : LadleOp) (d : Drain) (s : State) (s' : State) =>
        s.departed = false ∧ (s.bench b).forge.handing = some (o, d) ∧ s.mayHand b = true ∧ (∀ m ∈ o.mism, m.at_ ≠ o.rows) ∧ (s.bench b).fusedPoisoned d o.rows = false ∧
        let a := d.dst + BitVec.ofNat 64 (64 * d.dstr * o.rows)
        s.dvaWriteRow { eng := .ladle b, run := o.rows, el := a } (s.benchHmk b) a ((s.bench b).drainRow d o.rows) = (s', .ok)) 3 { entry := drainEntry 0x123400 toPages, rows := 63 } ((({ entry := drainEntry 0x123400 toPages, rows := 63 } : LadleOp).entry.drain true { t := 2, ra := 4, rb := 2, rc := 3 })) (handing ({ entry := drainEntry 0x123400 toPages, rows := 63 } : LadleOp)) (((handing ({ entry := drainEntry 0x123400 toPages, rows := 63 } : LadleOp)).dvaWriteRow { eng := .ladle (3), run := ({ entry := drainEntry 0x123400 toPages, rows := 63 } : LadleOp).rows, el := ((({ entry := drainEntry 0x123400 toPages, rows := 63 } : LadleOp).entry.drain true { t := 2, ra := 4, rb := 2, rc := 3 })).dst + BitVec.ofNat 64 (64 * ((({ entry := drainEntry 0x123400 toPages, rows := 63 } : LadleOp).entry.drain true { t := 2, ra := 4, rb := 2, rc := 3 })).dstr * ({ entry := drainEntry 0x123400 toPages, rows := 63 } : LadleOp).rows) } ((handing ({ entry := drainEntry 0x123400 toPages, rows := 63 } : LadleOp)).benchHmk (3)) (((({ entry := drainEntry 0x123400 toPages, rows := 63 } : LadleOp).entry.drain true { t := 2, ra := 4, rb := 2, rc := 3 })).dst + BitVec.ofNat 64 (64 * ((({ entry := drainEntry 0x123400 toPages, rows := 63 } : LadleOp).entry.drain true { t := 2, ra := 4, rb := 2, rc := 3 })).dstr * ({ entry := drainEntry 0x123400 toPages, rows := 63 } : LadleOp).rows)) (((handing ({ entry := drainEntry 0x123400 toPages, rows := 63 } : LadleOp)).bench (3)).drainRow ((({ entry := drainEntry 0x123400 toPages, rows := 63 } : LadleOp).entry.drain true { t := 2, ra := 4, rb := 2, rc := 3 })) ({ entry := drainEntry 0x123400 toPages, rows := 63 } : LadleOp).rows)).1)
      ∧ (fun (b : BenchId) (o : LadleOp) (d : Drain) (s : State) => s.departed = false ∧ s.aclock b = true ∧ (s.bench b).forge.handing = some (o, d) ∧ (s.bench b).forge.ladleHeld = false ∧ o.failed = none ∧ o.rows = 64 ∧ s.settled (.ladle b) = true) 3 { entry := drainEntry 0x123400 toPages, rows := 64 } ((({ entry := drainEntry 0x123400 toPages, rows := 64 } : LadleOp).entry.drain true { t := 2, ra := 4, rb := 2, rc := 3 })) ((handing ({ entry := drainEntry 0x123400 toPages, rows := 64 } : LadleOp)).updBench 3 fun x => { x with forge := { x.forge with queue := [drainEntry 0 0] } })
      ∧ (fun (b : BenchId) (o : LadleOp) (d : Drain) (s : State) (i : Nat) (st : ExtStatus) => s.departed = false ∧ s.forgeRuns b = true ∧ (s.bench b).forge.handing = some (o, d) ∧ (s.bench b).forge.ladleHeld = false ∧ o.failed = none ∧ st ≠ .ok ∧ s.runSettled { eng := .ladle b, run := i } = false) 3 { entry := drainEntry 0x123400 toPages, rows := 7 } ((({ entry := drainEntry 0x123400 toPages, rows := 7 } : LadleOp).entry.drain true { t := 2, ra := 4, rb := 2, rc := 3 })) (awaitRow (handing ({ entry := drainEntry 0x123400 toPages, rows := 7 } : LadleOp)) 5) 5 .timeout := by decide +kernel

theorem witness_SpareRowsAndCounts :
    (fun (s : State) => s.departed = false) (forge3 {})
      ∧ (fun (b : BenchId) (sp : Bool) (rel : Bool) (row : BitVec 6) (s : State) => s.departed = false ∧ s.aclock b = true ∧ (s.bench b).forge.quiescent = true ∧ (s.bench b).forge.spare = some (sp, rel, row) ∧ (∀ k, k < 2 → s.spareValid b k = true → s.spareRow b k = row.toNat → rel = true)) 3 false false 9 (forge3 { spare := some (false, false, 9) })
      ∧ (fun (s : State) => s.departed = false) (forge3 {})
      ∧ (fun (s : State) => s.departed = false) (forge3 {})
      ∧ (fun (b : BenchId) (s : State) => s.departed = false ∧ s.forgeParked b = true) 3 ((forge3 { lastArray := 0 }).updBench 3 fun x => { x with core := { x.core with cycle := 5000 } })
      ∧ (fun (s : State) => s.departed = false ∧ s.rootOn = true) (forge3 {}) := by decide +kernel

theorem witness_ArrayOperation :
    (fun (i : EngInstr) (c : Instr) (b : BenchId) (e : Entry) (s : State) =>
        ((∃ f, i = .fop f ∧ c = .fop b f none []) ∨ ∃ f, i = .fgauge f ∧ c = .fgauge b f none []) ∧ forgeHeads s b i e ∧ arrayIdle s b
          ∧ (s.bench b).forge.inject = false ∧ (s.bench b).arrayFault e = none ∧ e.k ≠ 0)
      (.fop { t := 2, fmt := 7 }) (.fop 3 { t := 2, fmt := 7 } none []) 3 fopEntry (forge3 (heads fopEntry)) := by
  unfold forgeHeads arrayIdle
  exact ⟨Or.inl ⟨_, rfl, rfl⟩, by decide +kernel⟩

theorem witness_LadleDrain_store :
    (fun (clear : Bool) (b : BenchId) (f : FmtD) (e : Entry) (s : State) =>
        forgeHeads s b (.drain clear f) e ∧ ladleIdle s b ∧ (s.bench b).storeFree e = true ∧
        let d := e.drain clear f
        s.drainFault b e d = none ∧ fusedClean (s.bench b) d ∧ d.dk < 2 ∧ d.dk = 1)
      false 3 { t := 2, ra := 4, rb := 2, rc := 3 }
      { fentry (.drain false { t := 2, ra := 4, rb := 2, rc := 3 }) 0x1000 0x4D60000008 0 with level := 2 }
      (forge3 (heads { fentry (.drain false { t := 2, ra := 4, rb := 2, rc := 3 }) 0x1000 0x4D60000008 0 with level := 2 })) := by
  refine ⟨by unfold forgeHeads; decide +kernel, by unfold ladleIdle; decide +kernel, by decide +kernel, ?_, by unfold fusedClean; decide +kernel,
    by decide +kernel, by decide +kernel⟩
  unfold State.drainFault
  rw [if_neg (by decide +kernel), if_neg (by decide +kernel), if_neg (by decide +kernel), if_neg (by decide +kernel),
    List.filter_eq_nil_iff.2 (fun a _ => by simp [State.guarded])]
  rfl

theorem witness_PlateLoadAndSeed_release :
    (fun (b : BenchId) (f : FmtPL) (e : Entry) (s : State) =>
        (s.bench b).forge.loader = none ∧ (s.bench b).storeFree e = true ∧ s.departed = false ∧ s.forgeRuns b = true
          ∧ (s.bench b).forge.loaderNext = some e ∧ e.instr = .pload f ∧ (s.bench b).forge.arrayNext = none
          ∧ (s.bench b).forge.ladleNext = none ∧ (s.bench b).forge.queue = [] ∧ (s.bench b).freeToBegin e = true ∧ ploadFault e = none)
      3 { ra := 1, rb := 2 } ploadEntry (forge3 { loaderNext := some ploadEntry }) := by
  decide +kernel

theorem witness_WalksAndFaults :
    (fun (e : Engine) (h : BitVec 12) (dva : W64) (acc : Acc) (s : State) (n : Nat) => clockOn s ∧ cacheMiss s e h dva acc ∧ s.faultMatch h (dva.toNat / 65536) = some n) (.core 3) 0 0x20000 .read joinS 9
      ∧ (fun (e : Engine) (h : BitVec 12) (dva : W64) (acc : Acc) (s : State) (s' : State) (leaf : W64) (pg : Nat) (n : Nat) => clockOn s ∧ cacheMiss s e h dva acc ∧ s.faultMatch h (dva.toNat / 65536) = none ∧ s.walk h dva acc = (s', .leaf leaf pg n)) (.core 3) 0 0x5000 .read tq (((tq).walk (0) (0x5000) (.read : Acc)).1) 0x200C3 0 1
      ∧ (fun (e : Engine) (h : BitVec 12) (dva : W64) (acc : Acc) (s : State) (s' : State) (sub : Byte) =>
        clockOn s ∧ cacheMiss s e h dva acc ∧ s.faultMatch h (dva.toNat / 65536) = none ∧ s.walk h dva acc = (s', .fault sub) ∧
        let f := s'.fnOf h
        let room := s'.freeFaults ≠ [] ∧ s'.faultsHeld f < s'.faultQuota f
        sub < 7 ∧ room) (.core 3) 0 0x25000 .read tq (((tq).walk (0) (0x25000) (.read : Acc)).1) 1
      ∧ (fun (e : Engine) (h : BitVec 12) (dva : W64) (acc : Acc) (s : State) (s' : State) (sub : Byte) =>
        clockOn s ∧ cacheMiss s e h dva acc ∧ s.faultMatch h (dva.toNat / 65536) = none ∧ s.walk h dva acc = (s', .fault sub) ∧
        let f := s'.fnOf h
        let room := s'.freeFaults ≠ [] ∧ s'.faultsHeld f < s'.faultQuota f
        sub < 7 ∧ ¬ room) (.core 3) 0 0x25000 .read (tq.setReg ⟨.xltFquota, 0, 0⟩ 0) (((tq.setReg ⟨.xltFquota, 0, 0⟩ 0).walk (0) (0x25000) (.read : Acc)).1) 1
      ∧ (fun (e : Engine) (h : BitVec 12) (dva : W64) (acc : Acc) (s : State) (s' : State) (sub : Byte) => clockOn s ∧ cacheMiss s e h dva acc ∧ s.faultMatch h (dva.toNat / 65536) = none ∧ s.walk h dva acc = (s', .fault sub) ∧ 7 ≤ sub) (.core 3) 0 0x10000000005000 .read tq (((tq).walk (0) (0x10000000005000) (.read : Acc)).1) 7 := by unfold cacheMiss clockOn; decide +kernel

theorem witness_RecordRings :
    (fun (f : FnId) (r : FaultRec) (rest : List FaultRec) (s : State) => clockOn s ∧ Sp.get (fun _ => []) s.xlat.fltq f.val = r :: rest ∧ s.recRoom faultRing f.val = true) 5 fr [fr] { ringS faultRing 5 with xlat := { fltq := [(5, [fr, fr])] } }
      ∧ (fun (f : FnId) (r : ErrRec) (rest : List ErrRec) (s : State) => clockOn s ∧ Sp.get (fun _ => []) s.errq f.val = r :: rest ∧ s.recRoom errorRing f.val = true) 5 er [] { ringS errorRing 5 with errq := [(5, [er])] } := by unfold clockOn; decide +kernel

theorem witness_FaultDoorbells :
    (fun (f : FnId) (v : W32) (s : State) => clockOn s ∧ s.faultNamed f v = none) 3 0x409 joinS
      ∧ (fun (f : FnId) (v : W32) (s : State) => clockOn s ∧ s.faultNamed f v = none) 0 0x309 joinS
      ∧ (fun (f : FnId) (v : W32) (s : State) (n : Nat) (b : BenchId) (dva : W64) (e : Entry) (q : List Entry) => clockOn s ∧ s.faultNamed f v = some n ∧ (s.fault n).waiters = [(.lathe b, dva)] ∧ (s.bench b).lathe.queue = e :: q ∧ (s.bench b).lathe.wait = some (.fault n) ∧ s.latheOn b = true) 0 0x409 (named (.lathe 3) (waiting (.fault 9) [])) 9 3 0x23000 load3 [load3]
      ∧ (fun (f : FnId) (v : W32) (s : State) (n : Nat) (b : BenchId) (dva : W64) (e : Entry) (q : List Entry) => clockOn s ∧ s.faultNamed f v = some n ∧ (s.fault n).waiters = [(.lathe b, dva)] ∧ (s.bench b).lathe.queue = e :: q ∧ (s.bench b).lathe.wait = some (.fault n) ∧ s.latheOn b = true) 0 0x409 (named (.lathe 3) (waiting (.fault 9) [])) 9 3 0x23000 load3 [load3]
      ∧ (fun (f : FnId) (v : W32) (s : State) (n : Nat) (b : BenchId) (dva : W64) (acc : Access) =>
        clockOn s ∧ s.faultNamed f v = some n ∧ (s.fault n).waiters = [(.core b, dva)] ∧ stalledIn s b (.fault acc (.fault n)) ∧ acc.ea.toNat / 65536 = (s.fault n).page ∧
        let l := s.delegLevel b 0x05 (s.bench b).core.pl
        roomFor s b l = true) 0 0x409 faulted3 9 3 0x23000 access3
      ∧ (fun (s : State) (b : BenchId) (e : Entry) (q : List Entry) => clockOn s ∧ s.xlat.quota ≠ [] ∧ (∀ w ∈ s.xlat.quota, w.engine = .lathe b) ∧ (s.bench b).lathe.queue = e :: q ∧ (s.bench b).lathe.wait = some .quota ∧ s.latheOn b = true) (waiting .quota [⟨.lathe 3, 0, 0x23000, .read⟩]) 3 load3 [load3] := by unfold stalledIn clockOn; decide +kernel

theorem witness_Invalidations :
    (fun (r : RingId) (hd : W64) (w1 : W64) (w2 : W64) (w3 : W64) (c : BitVec 12 × W64 × W64) (s : State) => clockOn s ∧ s.servesRing r = true ∧ hd.extractLsb' 60 4 = 5 ∧ hd.extractLsb' 32 26 = 0 ∧ s.xlat.inval.length < 64 ∧ w1.extractLsb' 12 52 = 0 ∧ w2.extractLsb' 52 12 = 0 ∧ w2.extractLsb' 0 16 = 0 ∧ w3.extractLsb' 36 28 = 0 ∧ s.xlat.contexts.find? (fun x => x.1 = w1.setWidth 12) = some c ∧ wbits c.2.2 21 16 = s.ringFn r) 9 0x5000000000000000 5 0x20000 7 ((5, 0x8000000000200000, 0x30000)) ringI
      ∧ (fun (i : Invalidation) (e : SEntry) (s : State) => clockOn s ∧ s.xlat.inval.find? (fun j => j.epoch = i.epoch) = some i ∧ (∀ f ∈ s.underway, i.delayedBy f = false) ∧ s.entry i.ring i.seq = some e ∧ (s.ring i.ring).recs ≠ []) inval entryI (invalS [flight 6 3 2, flight 5 9 4])
      ∧ (fun (i : Invalidation) (s : State) => clockOn s ∧ s.xlat.inval.find? (fun j => j.epoch = i.epoch) = some i ∧ (∃ f ∈ s.underway, i.delayedBy f = true)) inval (invalS [flight 5 3 2])
      ∧ (fun (s : State) => clockOn s ∧ s.fld .hmkLotStat 0 0 0 = 0) tq
      ∧ (fun (s : State) => clockOn s ∧ s.fld .hmkLotStat 0 0 0 = 1) (tq.setReg ⟨.hmkLotStat, 0, 0⟩ 1) := by unfold clockOn; decide +kernel

theorem witness_WalksAndFaults_hit :
    (fun (e : Engine) (h : BitVec 12) (dva : W64) (acc : Acc) (s : State) (x : TEntry) =>
        clockOn s ∧ (∃ n ∈ engineCaches e, x ∈ s.tcache n ∧ x.serves h (dva.toNat / 65536) acc = true) ∧
        (∃ c ∈ s.xlat.contexts, c.1 = h) ∧ (∀ n ∈ engineCaches e, ∀ y ∈ s.tcache n, wbits y.leaf 5 4 ≠ 1))
      (.core 3) 5 0x20020 .read ringI ⟨5, 2, 1, 0x200C3, 0⟩ := by
  unfold clockOn; decide +kernel

theorem witness_MemoryRequests :
    (fun (q : MemReq) (s : State) => clockOn s ∧ s.ctrlRequest q = true ∧ (∃ c, s.sleeps q.dpa = some c ∧ s.chanFull c = true)) { dpa := 0x1000, len := 64, hmk := 0 } fullChan
      ∧ (fun (q : MemReq) (s : State) =>
        clockOn s ∧ s.ctrlRequest q = true ∧
        let r : Requester := { hmk := q.hmk, smask := q.smask }
        (∀ c, s.sleeps q.dpa = some c → s.chanFull c = false) ∧ q.watched = false ∧ q.op = .read ∧ dramOk s r q.dpa q.len false = true) { dpa := 0x1000, len := 64, hmk := 0 } memS
      ∧ (fun (q : MemReq) (s : State) (d : List Byte) =>
        clockOn s ∧ s.ctrlRequest q = true ∧
        let r : Requester := { hmk := q.hmk, smask := q.smask }
        (∀ c, s.sleeps q.dpa = some c → s.chanFull c = false) ∧ q.watched = false ∧ q.op = .write d ∧ dramOk s r q.dpa d.length true = true) { dpa := 0x1000, op := .write (List.replicate 64 7), hmk := 0 } memS (List.replicate 64 7)
      ∧ (fun (q : MemReq) (s : State) (e : AtomRow) (wide : Bool) (o : W64) (x : W64) =>
        clockOn s ∧ s.ctrlRequest q = true ∧
        let r : Requester := { hmk := q.hmk, smask := q.smask }
        (∀ c, s.sleeps q.dpa = some c → s.chanFull c = false) ∧ q.watched = false ∧ q.op = .atomic e.aop wide o x ∧
        let n := if wide then 8 else 4
        dramOk s r q.dpa n false = true ∧ s.dramAllows r q.dpa true = true) { dpa := 0x1008, op := .atomic 1 true 5 7, hmk := 0 } memS (atomRows[1]) true 5 7
      ∧ (fun (q : MemReq) (s : State) =>
        clockOn s ∧ s.ctrlRequest q = true ∧
        let r : Requester := { hmk := q.hmk, smask := q.smask }
        (∀ c, s.sleeps q.dpa = some c → s.chanFull c = false) ∧ s.dramAllows r q.dpa (reqWrites q) = false) { dpa := 0x1000, len := 64, hmk := 5 } memS
      ∧ (fun (q : MemReq) (s : State) (c : Nat) =>
        clockOn s ∧ s.ctrlRequest q = true ∧
        let r : Requester := { hmk := q.hmk, smask := q.smask }
        (∀ c, s.sleeps q.dpa = some c → s.chanFull c = false) ∧ q.watched = false ∧ q.op = .read ∧ q.len = 64 ∧ dramOk s r q.dpa 64 false = true ∧ chanOf s q.dpa = some c) { dpa := 0x1000, len := 64, hmk := 0 } memS ((chanOf (memS) ({ dpa := 0x1000, len := 64, hmk := 0 } : MemReq).dpa).getD 0)
      ∧ (fun (q : MemReq) (s : State) (c : Nat) =>
        clockOn s ∧ s.ctrlRequest q = true ∧
        let r : Requester := { hmk := q.hmk, smask := q.smask }
        (∀ c, s.sleeps q.dpa = some c → s.chanFull c = false) ∧ q.watched = false ∧ q.op = .read ∧ q.len = 64 ∧ dramOk s r q.dpa 64 false = true ∧ chanOf s q.dpa = some c) { dpa := 0x1000, len := 64, hmk := 0 } memS ((chanOf (memS) ({ dpa := 0x1000, len := 64, hmk := 0 } : MemReq).dpa).getD 0) := by simp only [chan_full_iff, chan_room_iff]; unfold clockOn; decide +kernel

theorem witness_ControllerServices :
    (fun (c : Channel) (s : State) =>
        clockOn s ∧ s.chanUp c.num = true ∧
        let n := c.num
        s.scrubOf n ≠ 0 ∧
        let off := Sp.get (fun _ => 0) s.mem.serv.scrub n
        let errs := s.mem.lineErr.filter fun e => s.lineAt n off e.1
        let watched := s.mem.watched.filter fun e => s.lineAt n off e.1
        errs = [] ∧ watched = []) (.ingot 0 5) yard
      ∧ (fun (c : Channel) (s : State) (l : Nat) =>
        clockOn s ∧ s.chanUp c.num = true ∧
        let n := c.num
        s.scrubOf n ≠ 0 ∧
        let off := Sp.get (fun _ => 0) s.mem.serv.scrub n
        let errs := s.mem.lineErr.filter fun e => s.lineAt n off e.1
        let watched := s.mem.watched.filter fun e => s.lineAt n off e.1
        errs = [(l, .one)] ∧ watched = []) (.ingot 0 0) (scrubErr .one) 0
      ∧ (fun (c : Channel) (s : State) =>
        clockOn s ∧ s.chanUp c.num = true ∧
        let n := c.num
        s.scrubOf n ≠ 0 ∧
        let off := Sp.get (fun _ => 0) s.mem.serv.scrub n
        let errs := s.mem.lineErr.filter fun e => s.lineAt n off e.1
        (∃ l, (l, LineErr.many) ∈ errs)) (.ingot 0 0) (scrubErr .many)
      ∧ (fun (c : Channel) (s : State) => clockOn s ∧ s.chanUp c.num = true) (.ingot 0 5) yard
      ∧ (fun (c : Channel) (s : State) =>
        clockOn s ∧ s.chanUp c.num = true ∧
        let n := c.num
        sliceFree s n = true) (.ingot 0 5) yard
      ∧ (fun (c : Channel) (s : State) =>
        clockOn s ∧ s.chanUp c.num = true ∧
        let n := c.num
        sliceFree s n = true) (.ingot 0 5) yard
      ∧ (fun (c : Channel) (s : State) =>
        clockOn s ∧ s.chanUp c.num = true ∧
        let n := c.num
        sliceFree s n = true) (.ingot 0 5) yard
      ∧ (fun (g : Fin 8) (s : State) => clockOn s ∧ s.groupUp g.val = true) 1 yard
      ∧ (fun (g : Fin 8) (c : Fin 32) (s : State) => clockOn s ∧ s.chanUp (yardChan g c) = true) 1 5 yard
      ∧ (fun (g : Fin 8) (c : Fin 32) (s : State) => clockOn s ∧ s.chanUp (yardChan g c) = true) 1 5 yard
      ∧ (fun (g : Fin 8) (c : Fin 32) (s : State) => clockOn s ∧ s.chanUp (yardChan g c) = true) 1 5 yard := by simp only [exists_snd_iff]; unfold clockOn; decide +kernel

theorem witness_RepairReliefBringup :
    (fun (k : ShopId) (c : Fin 8) (bank : BitVec 4) (row : BitVec 24) (s : State) => clockOn s ∧ s.chanUp (8 * k.val + c.val) = true ∧ s.mem.serv.sliced.contains (8 * k.val + c.val) = false ∧ s.repaired (8 * k.val + c.val) bank.toNat < 4 ∧ s.fld .ingCfg 0 25 16 ≤ s.rowCount (8 * k.val + c.val) bank.toNat row.toNat) 1 3 5 77 repairing
      ∧ (fun (g : Fin 8) (c : Fin 32) (s : State) => clockOn s ∧ s.reliefRefused g.val c.val = true) 1 4 yard
      ∧ (fun (g : Fin 8) (c : Fin 32) (s : State) => clockOn s ∧ s.reliefRefused g.val c.val = false) 1 4 spread
      ∧ (fun (x : Relief) (s : State) => clockOn s ∧ s.mem.serv.relief = some x ∧ x.g < 8 ∧ x.ch < 32 ∧ x.wm + 1 < s.spreadLines x.g) { g := 1, ch := 4 } (relief 0)
      ∧ (fun (x : Relief) (s : State) => clockOn s ∧ s.mem.serv.relief = some x ∧ x.g < 8 ∧ x.ch < 32 ∧ s.spreadLines x.g ≤ x.wm + 1) { g := 1, ch := 4, wm := reserve.spreadLines 1 - 1 } (relief (reserve.spreadLines 1 - 1))
      ∧ (fun (s : State) => clockOn s ∧ s.fld .yrdMarginCtl 0 30 30 = 0) yard
      ∧ (fun (s : State) => clockOn s ∧ s.mem.serv.margin = true ∧ s.marginChan ∉ s.mem.serv.sliced) (yard.updServ fun y => { y with margin := true })
      ∧ (fun (k : ShopId) (s : State) => clockOn s ∧ s.stackUp k.val = true ∧ s.fld .shlShopStat k.val 28 26 = 4 ∧ k ∉ s.mem.serv.selfRef) 3 (yard.setFld .shlShopStat 3 28 26 4)
      ∧ (fun (k : ShopId) (s : State) => clockOn s ∧ s.stackUp k.val = false ∧ s.sec.unverified = none) 1 groups0
      ∧ (fun (g : Fin 8) (s : State) => clockOn s ∧ s.groupUp g.val = false ∧ s.sec.unverified = none ∧ s.firmwareIn = true ∧ s.fld .yrdGrpCfg g.val 31 31 = 1 ∧ s.grpValid g.val = true ∧ s.recordRelief g.val = none) 1 groups0
      ∧ (fun (g : Fin 8) (s : State) => clockOn s ∧ s.groupUp g.val = false ∧ s.sec.unverified = none ∧ s.firmwareIn = true ∧ s.fld .yrdGrpCfg g.val 31 31 = 1 ∧ s.grpValid g.val = false) 1 (groups0.setReg ⟨.yrdSpread, 0, 0⟩ 0x06000040) := by unfold clockOn; decide +kernel

theorem witness_CarterRings :
    (fun (c : CarterId) (b : BenchId) (s : State) =>
        clockOn s ∧ carterBench c = some b ∧ s.carterOn c = true ∧ s.carterFld c 2 31 31 = 1 ∧ s.carterFld c 3 24 24 = 0 ∧ (s.carter c).ringWait = none ∧ s.ringsBegin (s.carterSlot c) = true ∧
        let x := s.carter c
        let bell := BitVec.ofNat 16 (s.carterFld c 2 15 0)
        (x.seen ≠ s.bell bell ∨ x.reread = true) ∧ s.bellAllows (s.localHmk c) bell = true ∧ blockOpen s c b 0 128 ∧
        let cb := wordsOf 4 (ringBytes s c b 0 128)
        let n : W32 := (cb.getD 1 0).setWidth 32 + BitVec.ofNat 32 x.loc.length
        (cb.getD 2 0).getLsbD 63 = false ∧ s.curRun c true = none ∧ n = (cb.getD 0 0).setWidth 32) C7 3 (ring0 4 4)
      ∧ (fun (c : CarterId) (b : BenchId) (s : State) =>
        clockOn s ∧ carterBench c = some b ∧ s.carterOn c = true ∧ s.carterFld c 2 31 31 = 1 ∧ s.carterFld c 3 24 24 = 0 ∧ (s.carter c).ringWait = none ∧ s.ringsBegin (s.carterSlot c) = true ∧
        let x := s.carter c
        let bell := BitVec.ofNat 16 (s.carterFld c 2 15 0)
        (x.seen ≠ s.bell bell ∨ x.reread = true) ∧ s.bellAllows (s.localHmk c) bell = true ∧ blockOpen s c b 0 128 ∧
        let cb := wordsOf 4 (ringBytes s c b 0 128)
        let n : W32 := (cb.getD 1 0).setWidth 32 + BitVec.ofNat 32 x.loc.length
        let off := 128 * (1 + n.toNat % 2 ^ ringLog (s.carterFld c 2 19 16))
        let w := wordsOf 16 (ringBytes s c b off 128)
        (cb.getD 2 0).getLsbD 63 = false ∧ s.curRun c true = none ∧ n ≠ (cb.getD 0 0).setWidth 32 ∧ blockOpen s c b off 128 ∧ (x.loc = [] ∨ wordBits w 0 53 53 = 0) ∧ dWellFormed w true true = true ∧ dEndpoints c true w = true ∧ dAligned w = true) C7 3 (ring0 35 36)
      ∧ (fun (c : CarterId) (b : BenchId) (r : Run) (rest : List Run) (n : W32) (s : State) => clockOn s ∧ carterBench c = some b ∧ (s.carter c).loc = r :: rest ∧ r.src = .ring n ∧ s.runQuiet c r = true ∧ (s.carter c).ringWait = none ∧ r.st = .issued ∧ s.guardedAll b ((s.carterBase c + 8) % 0x200000) 4 = false) C7 3 fillIssued [run fill9] 3 (feeding C7 { loc := [fillIssued, run fill9] })
      ∧ (fun (c : CarterId) (b : BenchId) (r : Run) (rest : List Run) (n : W32) (s : State) (code : Byte) (sub : Byte) (addr : W64) => clockOn s ∧ carterBench c = some b ∧ (s.carter c).loc = r :: rest ∧ r.src = .ring n ∧ s.runQuiet c r = true ∧ (s.carter c).ringWait = none ∧ r.st = .failed code sub addr ∧ s.guardedAll b ((s.carterBase c + 16) % 0x200000) 8 = false ∧ code.toNat < 128 ∧ sub.toNat < 16) C7 3 fillFailed [run fill9] 3 (feeding C7 { loc := [fillFailed, run fill9] }) 5 9 0x123456
      ∧ (fun (c : CarterId) (r : Run) (rest : List Run) (g : RingId) (n : W32) (e : SEntry) (s : State) => clockOn s ∧ (s.carter c).fore = r :: rest ∧ r.src = .copy g n ∧ s.runQuiet c r = true ∧ s.entry g n = some e ∧ r.st = .issued ∧ (dRings r.words = true → s.bellAllows r.hmk (dBell r.words) = true)) C7 { fillIssued with src := .copy 9 3 } [] 9 3 copyE (copying { fillIssued with src := .copy 9 3 })
      ∧ (fun (c : CarterId) (r : Run) (rest : List Run) (g : RingId) (n : W32) (e : SEntry) (s : State) (code : Byte) (sub : Byte) (addr : W64) => clockOn s ∧ (s.carter c).fore = r :: rest ∧ r.src = .copy g n ∧ s.runQuiet c r = true ∧ s.entry g n = some e ∧ r.st = .failed code sub addr) C7 { fillFailed with src := .copy 9 3 } [] 9 3 copyE (copying { fillFailed with src := .copy 9 3 }) 5 9 0x123456
      ∧ (fun (c : CarterId) (loc : Bool) (r : Run) (s : State) (a : W64) => s.departed = false ∧ s.curRun c loc = some r ∧ r.st = .wait .ext a ∧ (loc = true → (s.carter c).ringWait = none) ∧ (∀ q ∈ (s.carter c).runs loc, s.sentWrite c q = none)) C7 true { run fill9 with st := .wait .ext 0x123456 } (lr { run fill9 with st := .wait .ext 0x123456 }) 0x123456
      ∧ (fun (c : CarterId) (loc : Bool) (r : Run) (s : State) => s.departed = false ∧ s.curRun c loc = some r ∧ feedRuns s c loc r ∧ dType r.words = 15) C7 true (run (desc 15 0 0 0 0 0 [])) (lr (run (desc 15 0 0 0 0 0 [])))
      ∧ (fun (c : CarterId) (loc : Bool) (r : Run) (f : Flight) (s : State) => s.departed = false ∧ (s.carter c).runs loc = [r] ∧ r.loc = loc ∧ (loc = true → (s.carter c).ringWait = none) ∧ s.sentWrite c r = some f) C7 true (run move2) sent7 (sending (run move2))
      ∧ (fun (c : CarterId) (s : State) => clockOn s ∧ s.carterFld c 3 31 31 = 0 ∧ s.carterFld c 3 29 29 = 1) C7 (copying fillIssued)
      ∧ (fun (c : CarterId) (s : State) => clockOn s ∧ s.carterFld c 2 31 31 = 1) C7 (copying fillIssued)
      ∧ (fun (n : SlotId) (e : SEntry) (p : Nat) (b : BenchId) (c : CarterId) (s : State) =>
        clockOn s ∧
        let k := s.kernel n
        let ready := fun (e : SEntry) =>
                e.parts.find? fun p => match k.benches[p]? with | some b => k.written.contains b | none => false
        (s.ring k.ring).entries.find? (fun e => e.st == .begun && e.type == 2 && (ready e).isSome) = some e ∧ ready e = some p ∧ k.benches[p]? = some b ∧ s.partCarter k.benches p b = some c ∧ 4 ≤ (e.words.drop 1).length ∧ dDb (e.words.drop 1) = 0) 2 partE 1 5 (.shop 1) partS := by
  dsimp only [feedRuns, blockOpen, clockOn]
  repeat' apply And.intro
  all_goals first | decide +kernel | simp

theorem witness_Hoppers :
    (fun (c : CarterId) (loc : Bool) (r : Run) (s : State) =>
        feedRuns s c loc r ∧ dType r.words = 3 ∧ dDk r.words = 5 ∧ dLes r.words ≤ 6 ∧ r.next < dCount r.words ∧
        let h := hopperOf (wordBits r.words 3 29 20)
        let x := s.hopper h
        r.got = [] ∧ s.feedTurn c loc = true ∧ s.hopRefuses h r.hmk = none ∧ x.fill ≠ s.hopCap h ∧ (x.open_ = some (c, loc) ∨ x.open_ = none ∧ (x.putters = [] ∨ x.putters.head? = some (c, loc)))) C7 true put17 (hop 0x80000100 { wr := 2, vis := 2, rd := 1, rel := 1 } (lr put17))
      ∧ (fun (c : CarterId) (loc : Bool) (r : Run) (s : State) =>
        feedRuns s c loc r ∧ (dType r.words = 0 ∨ dType r.words = 2) ∧ dSk r.words = 5 ∧ r.claim = none ∧
        let h := hopperOf (wordBits r.words 3 39 30)
        let x := s.hopper h
        let n := dCount r.words * dSize r.words / 64
        s.hopRefuses h r.hmk = none ∧ (x.takers = [] ∨ x.takers.head? = some (c, loc)) ∧ n ≤ (x.vis - x.rd).toNat) C7 true take17 (hop 0x80000100 { wr := 5, vis := 4, rd := 3, rel := 1 } (lr take17))
      ∧ (fun (c : CarterId) (loc : Bool) (r : Run) (s : State) => hopctlRuns s c loc r 0) C7 true (ctl17 0) (hop 0x80000100 (full17 true) (lr (ctl17 0)))
      ∧ (fun (c : CarterId) (loc : Bool) (r : Run) (s : State) => hopctlRuns s c loc r 1) C7 true (ctl17 1) (hop 0x80000100 (full17 true) (lr (ctl17 1)))
      ∧ (fun (c : CarterId) (loc : Bool) (r : Run) (s : State) =>
        let h := hopperOf (wordBits r.words 3 39 30)
        let x := s.hopper h
        hopctlRuns s c loc r 2 ∧ x.allRead x.mark = true) C7 true (ctl17 2) (hop 0x80000100 (full17 true) (lr (ctl17 2)))
      ∧ (fun (c : CarterId) (loc : Bool) (r : Run) (s : State) =>
        let h := hopperOf (wordBits r.words 3 39 30)
        let x := s.hopper h
        hopctlRuns s c loc r 3 ∧ x.allRead x.rd = true) C7 true (ctl17 3) (hop 0x80000100 (full17 true) (lr (ctl17 3)))
      ∧ (fun (c : CarterId) (loc : Bool) (r : Run) (s : State) =>
        let h := hopperOf (wordBits r.words 3 39 30)
        let x := s.hopper h
        hopctlRuns s c loc r 2 ∧ x.allRead x.mark = false) C7 true (ctl17 2) (hop 0x80000100 (full17 false) (lr (ctl17 2)))
      ∧ (fun (c : CarterId) (loc : Bool) (r : Run) (s : State) =>
        let h := hopperOf (wordBits r.words 3 39 30)
        let x := s.hopper h
        hopctlRuns s c loc r 3 ∧ x.allRead x.rd = false) C7 true (ctl17 3) (hop 0x80000100 (full17 false) (lr (ctl17 3)))
      ∧ (fun (h : HopperId) (s : State) =>
        clockOn s ∧
        let x := s.hopper h
        s.hopOn h = true ∧ s.fld .hopCfg h.val 30 30 = 1 ∧ x.open_.isSome = true) 17 (hop 0xF8000000 (full17 true) on)
      ∧ (fun (h : HopperId) (s : State) => clockOn s ∧ s.fld .hopCfg h.val 29 29 = 1) 17 (hop 0xF8000000 (full17 true) on)
      ∧ (fun (h : HopperId) (s : State) (n : Nat) (rest : List Nat) =>
        clockOn s ∧
        let x := s.hopper h
        x.notices = n :: rest) 17 (hop 0xF8000000 (full17 true) on) 5 [6]
      ∧ (fun (h : HopperId) (s : State) => clockOn s ∧ s.fld .hopStatus h.val 31 31 = 0 ∧ s.fld .hopStatus h.val 29 29 = 1) 17 (hop 0xF8000000 (full17 true) on) := by
  dsimp only [hopctlRuns, feedRuns, clockOn]
  repeat' apply And.intro
  all_goals first | decide +kernel | simp

theorem witness_CarterElements_move :
    (fun (c : CarterId) (loc : Bool) (r : Run) (b : BenchId) (s : State) => feedRuns s c loc r ∧ r.next = 0 ∧ r.undo = [] ∧ r.st = .running ∧ r.idx = none ∧ r.got = [] ∧ s.feedTurn c loc = true ∧
      (∀ g n k, r.src ≠ .part g n k) ∧ dType r.words < 4 ∧ dLes r.words < 7 ∧ dDk r.words = 1 ∧ (dType r.words = 3 ∨ dSk r.words = 1) ∧
      (dType r.words = 1 ∨ dType r.words = 2 → carterBench c = some b ∧ wordBits r.words 3 16 16 = 0) ∧
      (∀ n, n < dCount r.words → elemClear s b r n) ∧ runApart s b r) C7 true (run move2) 3 (lr (run move2)) := by
  have apart : ∀ n, n < dCount move2 → ∀ m, m < dCount move2 → ∀ k, k < dSize move2 → ∀ j, j < dSize move2 →
      wrapStore ((elemSource (lr (run move2)) 3 (run move2) m).toNat % 0x200000 + j)
        ≠ wrapStore ((elemTarget (lr (run move2)) 3 (run move2) n).toNat % 0x200000 + k) := by decide +kernel
  dsimp only
  refine ⟨by unfold feedRuns; decide +kernel, rfl, rfl, rfl, rfl, rfl, by decide +kernel, fun _ _ _ h => (nomatch h), by decide +kernel, by decide +kernel, by decide +kernel,
    by decide +kernel, by decide +kernel, by unfold elemClear; decide +kernel, fun n m k j hn hm hk => ⟨fun _ _ hj => apart n hn m hm k hk j hj, fun h => absurd h (by decide +kernel)⟩⟩

theorem witness_CarterElements_gather :
    (fun (c : CarterId) (loc : Bool) (r : Run) (b : BenchId) (s : State) => feedRuns s c loc r ∧ r.next = 0 ∧ r.undo = [] ∧ r.st = .running ∧ r.idx = none ∧ r.got = [] ∧ s.feedTurn c loc = true ∧
      (∀ g n k, r.src ≠ .part g n k) ∧ dType r.words < 4 ∧ dLes r.words < 7 ∧ dDk r.words = 1 ∧ (dType r.words = 3 ∨ dSk r.words = 1) ∧
      (dType r.words = 1 ∨ dType r.words = 2 → carterBench c = some b ∧ wordBits r.words 3 16 16 = 0) ∧
      (∀ n, n < dCount r.words → elemClear s b r n) ∧ runApart s b r) C7 true (run gather3) 3 (lr (run gather3)) := by
  have apart : ∀ n, n < dCount gather3 → ∀ m, m < dCount gather3 → ∀ k, k < dSize gather3 → ∀ j, j < dSize gather3 →
      wrapStore ((elemSource (lr (run gather3)) 3 (run gather3) m).toNat % 0x200000 + j)
        ≠ wrapStore ((elemTarget (lr (run gather3)) 3 (run gather3) n).toNat % 0x200000 + k) := by decide +kernel
  have list : ∀ n, n < dCount gather3 → ∀ m, m < dCount gather3 → ∀ k, k < dSize gather3 → ∀ j, j < 4 →
      wrapStore (listAt (run gather3) m + j) ≠ wrapStore ((elemTarget (lr (run gather3)) 3 (run gather3) n).toNat % 0x200000 + k) := by
    decide +kernel
  dsimp only
  refine ⟨by unfold feedRuns; decide +kernel, rfl, rfl, rfl, rfl, rfl, by decide +kernel, fun _ _ _ h => (nomatch h), by decide +kernel, by decide +kernel, by decide +kernel,
    by decide +kernel, by decide +kernel, by unfold elemClear; decide +kernel, fun n m k j hn hm hk => ⟨fun _ _ hj => apart n hn m hm k hk j hj, fun _ _ hj => list n hn m hm k hk j hj⟩⟩

theorem witness_StreamEntries :
    (fun (f : FnId) (r : RingId) (v : W32) (s : State) =>
        clockOn s ∧ s.doorbellServes f = true ∧ s.ringFn r = f.val ∧
        let d := (v - s.reg ⟨.cthRingFetch, r.val, 0⟩).toNat
        let size := 2 ^ max 4 (s.fld .cthRingCfg r.val 23 20)
        d ≤ size) 3 9 5 (ring9 {})
      ∧ (fun (f : FnId) (r : RingId) (v : W32) (s : State) =>
        clockOn s ∧ s.doorbellServes f = true ∧ s.ringFn r = f.val ∧
        let d := (v - s.reg ⟨.cthRingFetch, r.val, 0⟩).toNat
        let size := 2 ^ max 4 (s.fld .cthRingCfg r.val 23 20)
        size < d) 3 9 100 (ring9 {})
      ∧ (fun (f : FnId) (r : RingId) (v : W32) (s : State) => clockOn s ∧ s.doorbellServes f = true ∧ s.ringFn r = f.val) 3 9 5 (ring9 {})
      ∧ (fun (host : Cells) (r : RingId) (s : State) =>
        clockOn s ∧ s.nextRing = some r ∧
        let n := s.reg ⟨.cthRingFetch, r.val, 0⟩
        let m := s.mem.host.setCells host
        let a := s.base52 .cthRingBaseLo .cthRingBaseHi r.val 8 + 256 * (n.toNat % 2 ^ max 4 (s.fld .cthRingCfg r.val 23 20))
        let ty := leVal (m.bytes id a 8) / 2 ^ 60 % 16
        (s.ring r).tail = n + 1 ∧ ty ≠ 5 ∧ ((s.ring r).slot = none → s.ringHmk r ≠ 0)) [] 9 { ring9 { tail := 4 } with turn := 8 }
      ∧ (fun (host : Cells) (r : RingId) (s : State) =>
        clockOn s ∧ s.nextRing = some r ∧
        let n := s.reg ⟨.cthRingFetch, r.val, 0⟩
        let m := s.mem.host.setCells host
        let a := s.base52 .cthRingBaseLo .cthRingBaseHi r.val 8 + 256 * (n.toNat % 2 ^ max 4 (s.fld .cthRingCfg r.val 23 20))
        let ty := leVal (m.bytes id a 8) / 2 ^ 60 % 16
        (s.ring r).tail = n + 1 ∧ ty ≠ 5 ∧ (s.ring r).slot = none ∧ s.ringHmk r = 0 ∧ (∀ x ∈ (s.ring r).entries, x.n ≠ n)) [] 9 { (ring9 { tail := 4 }).setFld .cthRingCfg 9 11 0 0 with turn := 8 }
      ∧ (fun (host : Cells) (r : RingId) (s : State) =>
        clockOn s ∧ s.nextRing = some r ∧
        let n := s.reg ⟨.cthRingFetch, r.val, 0⟩
        let m := s.mem.host.setCells host
        let a := s.base52 .cthRingBaseLo .cthRingBaseHi r.val 8 + 256 * (n.toNat % 2 ^ max 4 (s.fld .cthRingCfg r.val 23 20))
        let ty := leVal (m.bytes id a 8) / 2 ^ 60 % 16
        (s.ring r).tail = n + 1 ∧ ty ≠ 5 ∧ (∀ x ∈ (s.ring r).entries, x.n ≠ n) ∧ ((s.ring r).entries.map (·.n)).Nodup) [] 9 { ring9 { tail := 4, slot := some 2 } with turn := 8 }
      ∧ (fun (r : RingId) (e : SEntry) (s : State) => begins s r (fun e => e.type == 0 || decide (6 ≤ e.type)) e) 9 (en 0 []) (queued (en 0 []))
      ∧ (fun (r : RingId) (e : SEntry) (s : State) => begins s r (fun e => e.type == 3) e) 9 (en 0x3000000000000000 bell5) (queued (en 0x3000000000000000 bell5))
      ∧ (fun (r : RingId) (e : SEntry) (s : State) => begins s r (fun e => e.type == 4) e) 9 (en 0x4000000000000000 bell5) (queued (en 0x4000000000000000 bell5))
      ∧ (fun (r : RingId) (e : SEntry) (s : State) (c : CarterId) =>
        begins s r (fun e => e.type == 2) e ∧ e.launchCopy = false ∧
        let w := e.words.drop 1
        (s.pickCarter w).2 = some c ∧ dWellFormed w (carterBench c).isSome false = true ∧ dEndpoints c false w = true ∧ dAligned w = true) 9 (en 0x2000000000000000 copy5) (queued (en 0x2000000000000000 copy5)) (.shop 0)
      ∧ (fun (r : RingId) (e : SEntry) (s : State) =>
        begins s r (fun e => e.type == 2) e ∧ e.launchCopy = false ∧
        let w := e.words.drop 1
        (s.pickCarter w).2 = none) 9 (en 0x2000000000000000 copy5) ([0, 1].foldl (fun s k => s.setFld .crtSStatus k 29 29 0) (queued (en 0x2000000000000000 copy5)))
      ∧ (fun (r : RingId) (c : CRec) (rest : List CRec) (s : State) =>
        clockOn s ∧ (s.ring r).recs = c :: rest ∧ (s.ring r).mute = false ∧
        let m := s.reg ⟨.cthRingCqtail, r.val, 0⟩
        let log := max 4 (s.fld .cthRingCqcfg r.val 19 16)
        (m - (s.ring r).cqHead).toNat = 2 ^ log) 9 rec3 [] (recsS 5)
      ∧ (fun (r : RingId) (c : CRec) (rest : List CRec) (s : State) =>
        clockOn s ∧ (s.ring r).recs = c :: rest ∧ (s.ring r).mute = false ∧
        let m := s.reg ⟨.cthRingCqtail, r.val, 0⟩
        let log := max 4 (s.fld .cthRingCqcfg r.val 19 16)
        (m - (s.ring r).cqHead).toNat ≠ 2 ^ log ∧ s.linkUp (s.linkOf (s.ringFn r)) = true) 9 rec3 [] (recsS 6)
      ∧ (fun (f : FnId) (vec : BitVec 11) (s : State) (d : Nat × VecSrc) =>
        clockOn s ∧ vec.toNat < s.tableSize f.val ∧
        let x := s.fn f.val
        x.due.find? (fun d => d.1 = vec.toNat) = some d) 3 3 msixS ((3, .ring 9))
      ∧ (fun (f : FnId) (vec : BitVec 11) (s : State) => clockOn s ∧ vec.toNat < s.tableSize f.val) 3 3 msixS
      ∧ (fun (s : State) => clockOn s) (ring9 {})
      ∧ (fun (r : RingId) (s : State) (n : SlotId) => clockOn s ∧ s.slotRing n = some r) 9 (queued (en 0 [])) 2
      ∧ (fun (r : RingId) (s : State) => clockOn s ∧ s.fld .cthRingCfg r.val 31 31 = 1 ∧ s.fld .cthRingCfg r.val 30 30 = 0 ∧ ((s.ring r).entries.map (·.n)).Nodup) 9 (queued (en 0 [])) := by
  dsimp only [begins, clockOn]
  repeat' apply And.intro
  all_goals first | decide +kernel | simp

theorem witness_KernelReleases :
    (fun (r : RingId) (n : SlotId) (e : SEntry) (s : State) => begins s r (fun e => e.type == 1) e ∧ (s.ring r).slot = some n ∧ (s.kernel n).phase = .none ∧ (∀ x ∈ (s.ring r).entries, x.preFailed = false) ∧ wordBits e.words 2 55 52 = 0 ∧ s.launchRefused r e = false) 9 2 (launchE 3) (benchesOn (queued (launchE 3)))
      ∧ (fun (r : RingId) (n : SlotId) (e : SEntry) (s : State) => begins s r (fun e => e.type == 1) e ∧ (s.ring r).slot = some n ∧ (s.kernel n).phase = .none ∧ (∀ x ∈ (s.ring r).entries, x.preFailed = false) ∧ wordBits e.words 2 55 52 = 0 ∧ s.launchRefused r e = true) 9 2 (launchE 5) (benchesOn (queued (launchE 5)))
      ∧ (fun (n : SlotId) (l : SEntry) (s : State) =>
        clockOn s ∧
        let k := s.kernel n
        k.phase = .waiting ∧ s.entry k.ring k.n = some l ∧ l.preFailed = false ∧ s.preempted = [] ∧ s.served.head? = some n ∧
        let bs := ((lMask k.words).filter s.benchFree).take (wordBits k.words 2 48 40)
        bs.length = wordBits k.words 2 48 40) 2 { launchE 3 with st := .begun } { kernelS 3 { phase := .waiting } with launchq := [2] }
      ∧ (fun (n : SlotId) (l : SEntry) (s : State) =>
        clockOn s ∧
        let k := s.kernel n
        k.phase = .waiting ∧ s.entry k.ring k.n = some l ∧ l.preFailed = false ∧ s.preempted = [] ∧ s.served.head? = some n ∧
        let bs := ((lMask k.words).filter s.benchFree).take (wordBits k.words 2 48 40)
        bs.length ≠ wordBits k.words 2 48 40) 2 { launchE 4 with st := .begun } { (kernelS 4 { phase := .waiting }).setReg ⟨.fmnBenchCtl, 17, 0⟩ 0 with launchq := [2] }
      ∧ (fun (n : SlotId) (s : State) =>
        clockOn s ∧
        let k := s.kernel n
        let w := k.words
        k.phase = .assigned ∧ k.written = [] ∧ lEngines w = false ∧ k.benches.Nodup ∧ s.preDone k = true) 2 (kernelS 3 { phase := .assigned, benches := [2, 5, 17] })
      ∧ (fun (n : SlotId) (s : State) =>
        clockOn s ∧
        let k := s.kernel n
        let l := (k.benches.filter fun b => !k.woken.contains b).take 8
        k.phase = .running ∧ k.owed = [] ∧ k.benches.Nodup ∧ (∀ b ∈ l, (s.bench b).slot = some n ∧ s.fld .benDbgCtl b.val 0 0 = 0)) 2 running := by
  dsimp only [begins, clockOn]
  repeat' apply And.intro
  all_goals first | decide +kernel | simp

theorem witness_KernelEnds :
    (fun (n : SlotId) (l : SEntry) (s : State) =>
        clockOn s ∧
        let k := s.kernel n
        k.phase = .running ∧ met (s.bell (BitVec.ofNat 16 (wordBits k.words 1 63 48))) (BitVec.ofNat 32 (wordBits k.words 1 31 0)) = true ∧ lEngines k.words = false ∧ s.entry k.ring k.n = some l ∧ l.type = 1 ∧ wordBits l.words 2 55 52 = 0 ∧ k.benches.Nodup ∧ (∀ b ∈ k.benches, benchDone s n b)) 2 { launchE 3 with st := .begun } { assigned [2, 5, 17] (fun x => { x with core := { x.core with pl := 1 } }) running with belfry := { running.belfry with counts := [(9, 6)] } }
      ∧ (fun (n : SlotId) (s : State) =>
        clockOn s ∧
        let k := s.kernel n
        k.phase = .running ∧ wordBits k.words 2 15 8 ≠ 0 ∧ k.woken ≠ []) 2 (running.updKernel 2 fun k => { k with words := 0 :: launch 3 1 7 })
      ∧ (fun (n : SlotId) (s : State) =>
        clockOn s ∧
        let k := s.kernel n
        k.phase ≠ .none ∧ k.phase ≠ .ending true) 2 running
      ∧ (fun (n : SlotId) (s : State) =>
        clockOn s ∧
        let k := s.kernel n
        k.phase = .running ∧ k.benches.Nodup ∧ (∀ b ∈ k.benches, (s.bench b).slot = some n)) 2 running
      ∧ (fun (n : SlotId) (s : State) =>
        clockOn s ∧
        let k := s.kernel n
        (k.phase = .running ∨ k.phase = .resuming) ∧ s.slotImage n ≠ 0 ∧ lEngines k.words = false ∧ k.benches.Nodup ∧ (∀ b ∈ k.benches, (s.bench b).slot = some n)) 2 (running.setReg ⟨.fmnSlotImgLo, 2, 0⟩ 0x400000)
      ∧ (fun (b : BenchId) (n : SlotId) (s : State) => clockOn s ∧ (s.bench b).slot = some n ∧ (s.kernel n).phase = .preempting ∧ s.aclock b = true ∧ (s.bench b).core.running = true ∧ (s.bench b).core.halted = false ∧ (s.bench b).core.pl = 2 ∧ (s.bench b).core.pendPreempt = false ∧ (s.bench b).core.stall = none) 2 2 (preempting { running := true, pl := 2, pc := 0x123 } false)
      ∧ (fun (n : SlotId) (s : State) => clockOn s ∧ s.mayResume n = true ∧ (s.kernel n).benches.Nodup) 2 preempted
      ∧ (fun (s : State) => clockOn s ∧ s.fld .fmnShiftCfg 0 31 30 = 1) ((ring9 {}).setReg ⟨.fmnShiftCfg, 0, 0⟩ 0x40000000)
      ∧ (fun (s : State) => clockOn s ∧ s.fld .fmnShiftCfg 0 31 30 = 2 ∧ s.ready = true) ((ring9 {}).setReg ⟨.fmnShiftCfg, 0, 0⟩ 0x80000000)
      ∧ (fun (b : BenchId) (s : State) => clockOn s ∧ s.fld .fmnBenchCtl b.val 28 28 = 1 ∧ s.fld .fmnBenchCtl b.val 30 30 = 0) 3 (spareBench 0x90000000)
      ∧ (fun (b : BenchId) (s : State) => clockOn s ∧ s.fld .fmnBenchCtl b.val 28 28 = 0 ∧ s.fld .fmnBenchCtl b.val 30 30 = 0 ∧ s.fld .fmnBreset 0 30 30 = 0) 3 (spareBench 0)
      ∧ (fun (u : SelfTest) (s : State) => clockOn s ∧ s.resetting = some u.bench ∧ u.rows = [] ∧ noEntries s u.bench) { bench := 3, rows := [], unit_ := none } { (spareBench 0).setFld .fmnBreset 0 30 30 1 with resetting := some 3 }
      ∧ (fun (u : SelfTest) (s : State) => clockOn s ∧ s.fld .benXstat u.bench.val 31 31 = 1 ∧ u.rows = [] ∧ u.unit_ = none ∧ noEntries s u.bench) { bench := 3, rows := [], unit_ := none } { (spareBench 0x90000000).setReg ⟨.benXstat, 3, 0⟩ 0x80000005 with seizing := [3] } := by
  dsimp only [benchDone, noEntries, clockOn]
  repeat' apply And.intro
  all_goals first | decide +kernel | simp

theorem witness_KernelEnds_auto :
    (fun (n m : SlotId) (s : State) => clockOn s ∧ s.fld .fmnCfg 0 31 31 = 1 ∧
      (s.served.filter fun n => decide ((s.benchesHeld n).length < wordBits (s.kernel n).words 2 48 40)).head? = some n ∧
      let able (x : SlotId) : Prop := ((s.kernel x).phase = .running ∨ (s.kernel x).phase = .resuming) ∧ lPri (s.kernel x).words < lPri (s.kernel n).words
        ∧ s.slotImage x ≠ 0 ∧ ∃ b ∈ (s.kernel x).benches, b ∈ lMask (s.kernel n).words
      able m ∧ (∀ x, able x → x ≠ m → lPri (s.kernel m).words < lPri (s.kernel x).words
          ∨ lPri (s.kernel m).words = lPri (s.kernel x).words ∧ (s.kernel x).order < (s.kernel m).order)) 4 2 autoS := by
  unfold clockOn; dsimp only; decide +kernel

/-- A bench without blocks has its image below the program-store area. -/
theorem image_below (x : Bench) (n : Nat) (r : List W64) (hr : r.length ≤ 72) (hx : x.blocks = [])
    (hm : (([(0, x.store), (0x200000, tileBytes x.forge.tiles), (0x300000, x.forge.plates), (0x340000, x.lathe.v),
      (0x360000, maskBytes x.lathe.m)] : List (Nat × Memory)).foldl (fun (a : Memory) p => Sp.overlay a p.1 p.2) []).all
        (fun p => decide (p.1 < 0x36C000)) = true) (p) (hp : p ∈ x.image n r) : p.1 < 0x36C000 := by
  unfold Bench.image at hp
  have hl : ((List.range 0x4000).map (Config.imageByte n)).length = 0x4000 := by rw [List.length_map, List.length_range]
  have hq : (r.flatMap fun w => leBytes 8 w.toNat).length ≤ 576 := by
    have aux : ∀ r : List W64, (r.flatMap fun w => leBytes 8 w.toNat).length = 8 * r.length := by
      intro r
      induction r with
      | nil => rfl
      | cons a r ih =>
        have h8 : (leBytes 8 a.toNat).length = 8 := by simp [leBytes]
        rw [List.flatMap_cons, List.length_append, ih, h8, List.length_cons]
        omega
    rw [aux]
    omega
  generalize (List.range 0x4000).map (Config.imageByte n) = l at hp hl
  generalize (r.flatMap fun w => leBytes 8 w.toNat) = q at hp hq
  have hk : Config.progressAt % 1977 < 1977 := Nat.mod_lt _ (by decide)
  generalize Config.progressAt % 1977 = k at hp hk
  extract_lets parts m1 m2 m3 at hp
  rw [hx, List.length_nil, List.range_zero, List.zip_nil_left, List.foldl_nil] at hp
  have h1 := Memory.below_setBytes 0x36C000 l m1 0x368000 hm (by omega)
  have h2 := Memory.below_setBytes 0x36C000 q m2 (0x368000 + 8 * k) h1 (by omega)
  exact of_decide_eq_true (List.all_eq_true.1 h2 p hp)

theorem witness_KernelEnds_image :
    (fun (b : BenchId) (n : SlotId) (s : State) => clockOn s ∧ (s.bench b).slot = some n ∧ (s.kernel n).phase = .preempting ∧
        s.fld .benXstat b.val 31 31 = 0 ∧ s.handedStill b = true ∧ (s.bench b).store.wf = true ∧
        let k := s.kernel n
        let a := s.slotImage n + 0x400000 * (k.benches.takeWhile (· != b)).length
        let u := ladleSettle b s
        let size := (u.bench b).imageSize
        (∀ i, i < size → (s.route (a + i)).isSome = true) ∧ (∀ p ∈ (u.bench b).image u.draws (u.progressRecord b), p.1 < size) ∧
        s.mem.dram.wf = true)
      2 2 (preempting { pl := 2 } true) := by
  unfold clockOn
  have hu : ladleSettle 2 (preempting { pl := 2 } true) = preempting { pl := 2 } true := by
    have h : ((preempting { pl := 2 } true).bench 2).forge.handing = none := by decide +kernel
    unfold ladleSettle
    rw [h]
  have hs : ((preempting { pl := 2 } true).bench 2).imageSize = 0x36C000 := by decide +kernel
  dsimp only
  rw [hu, hs]
  refine ⟨by decide +kernel, by decide +kernel, by decide +kernel, by decide +kernel, by decide +kernel, by decide +kernel, ?_, ?_,
    by decide +kernel⟩
  · intro i hi
    have ha : (preempting { pl := 2 } true).slotImage 2 + 0x400000 *
        (((preempting { pl := 2 } true).kernel 2).benches.takeWhile (· != (2 : BenchId))).length = 0x400000 := by decide +kernel
    have hu : (preempting { pl := 2 } true).stackUp 0 = true := by decide +kernel
    have hr : (preempting { pl := 2 } true).ingRanged = 0x80000000 := by decide +kernel
    rw [ha]
    unfold State.route
    have h0 : (0x400000 + i) / 0x80000000 = 0 := by omega
    have h1 : (0x400000 + i) % 0x80000000 < 0x80000000 := Nat.mod_lt _ (by decide)
    simp only [h0, hu, hr, h1, show 0x400000 + i < 0x800000000 by omega, if_true, decide_true, Bool.and_self, Option.isSome_some]
  · exact fun p hp => image_below _ _ _ (by decide +kernel) (by decide +kernel) (by decide +kernel) p hp

theorem witness_HostPort :
    (fun (k : LinkId) (gen : BitVec 3) (width : BitVec 5) (s : State) => portOn s ∧ s.linkMode k gen width = true ∧ s.linkUp k = false ∧ s.mayTrain k = true) 0 5 16 linkOff
      ∧ (fun (k : LinkId) (gen : BitVec 3) (width : BitVec 5) (s : State) => portOn s ∧ s.linkMode k gen width = true ∧ s.linkUp k = true ∧ (6 ≤ gen.toNat → s.fld .pexLinkStat k.val 30 30 ≠ 0)) 0 5 16 host0
      ∧ (fun (k : LinkId) (s : State) => portOn s ∧ s.linkUp k = true) 0 host0
      ∧ (fun (k : LinkId) (s : State) => portOn s ∧ s.linkUp k = false ∧ s.fld .pexLinkStat k.val 29 27 ≠ 0) 0 downed
      ∧ (fun (k : LinkId) (s : State) => portOn s ∧ s.fld .pexLinkCfg 0 31 31 = 1) 0 (keeping downed)
      ∧ (fun (k : LinkId) (s : State) => portOn s ∧ s.fld .pexLinkCfg 0 31 31 = 1) 0 (keeping downed)
      ∧ (fun (f : FnId) (s : State) => portOn s ∧ s.linkFirst (s.linkOf f.val) ≠ some f) 3 host0
      ∧ (fun (k : LinkId) (off : Nat) (len : Nat) (w : Fin 64) (s : State) (c : Nat) =>
        barUnit s k off len w ∧
        let a := s.awinDpa w off
        dramOk s (s.awinReq w) a len false = true ∧ s.rangeSleeps a len = some c ∧ s.chanFull c = false) 0 0x601000 64 2 asleep0 ((asleep0.rangeSleeps (asleep0.awinDpa 2 0x601000) 64).getD 0)
      ∧ (fun (k : LinkId) (off : Nat) (len : Nat) (w : Fin 64) (s : State) =>
        barUnit s k off len w ∧
        let a := s.awinDpa w off
        dramOk s (s.awinReq w) a len false = true ∧ s.rangeSleeps a len = none) 0 0x601000 64 2 host0
      ∧ (fun (k : LinkId) (off : Nat) (len : Nat) (w : Fin 64) (s : State) (d : List Byte) =>
        barUnit s k off len w ∧
        let a := s.awinDpa w off
        d.length = len ∧ s.fld .pexAwinCfg w.val 30 30 = 1 ∧ dramOk s (s.awinReq w) a len true = true ∧ s.rangeSleeps a len = none) 0 0x601000 64 2 host0 (List.replicate 64 7)
      ∧ (fun (k : LinkId) (off : Nat) (len : Nat) (w : Fin 64) (s : State) => barUnit s k off len w) 0 0x601000 64 2 host0
      ∧ (fun (k : LinkId) (off : Nat) (s : State) => portOn s ∧ s.linkUp k = true ∧ s.ready = true ∧ s.rootOn = true ∧ s.awin k off = none) 0 0x1000 host0
      ∧ (fun (k : LinkId) (off : Nat) (s : State) => portOn s ∧ s.linkUp k = true ∧ off < 2 ^ 39) 0 0x1000 host0
      ∧ (fun (k : LinkId) (s : State) => portOn s ∧ s.linkUp k = true) 0 host0
      ∧ (fun (b : BenchId) (acc : Access) (p : Piece) (tag : Nat) (n : BitVec 6) (q : Option (BitVec 20)) (a : Nat) (rd : R5) (sx : Bool) (s : State) => hostRead s b acc p tag n q a rd sx) 3 load9 hostPasid 9 3 (some 7) 0x5000 9 true (reading hostPasid)
      ∧ (fun (b : BenchId) (acc : Access) (p : Piece) (tag : Nat) (n : BitVec 6) (q : Option (BitVec 20)) (a : Nat) (rd : R5) (sx : Bool) (s : State) =>
        hostRead s b acc p tag n q a rd sx ∧
        let c := (s.bench b).core
        let l := s.delegLevel b 0x04 c.pl
        roomFor s b l = true) 3 load9 hostPasid 9 3 (some 7) 0x5000 9 true (reading hostPasid)
      ∧ (fun (f : FnId) (s : State) => portOn s ∧ s.fnVisible f = true) 3 ((host0.updFn 0 fun x => { x with vfEnable := true }).updFn 3 fun x => { x with vfEnable := true, pba := [3, 4] })
      ∧ (fun (f : FnId) (s : State) =>
        portOn s ∧ s.fnVisible f = true ∧
        let x := s.fn f.val
        x.vfEnable = true ∧ s.fnPhysical f = true) 0 (host0.updFn 0 fun x => { x with vfEnable := true })
      ∧ (fun (f : FnId) (s : State) =>
        portOn s ∧ s.fnVisible f = true ∧
        let x := s.fn f.val
        (x.vfEnable = false ∨ s.fnPhysical f = false)) 3 (host0.updFn 0 fun x => { x with vfEnable := true })
      ∧ (fun (f : FnId) (s : State) => portOn s ∧ s.fnVisible f = true) 3 ((host0.updFn 0 fun x => { x with vfEnable := true }).updFn 3 fun x => { x with vfEnable := true, pba := [3, 4] })
      ∧ (fun (f : FnId) (s : State) => portOn s ∧ s.fnVisible f = true) 3 ((host0.updFn 0 fun x => { x with vfEnable := true }).updFn 3 fun x => { x with vfEnable := true, pba := [3, 4] })
      ∧ (fun (f : FnId) (s : State) => portOn s ∧ s.fnVisible f = false) 3 (host0.setReg ⟨.pexFnCtl, 3, 0⟩ 0)
      ∧ (fun (f : FnId) (s : State) => clockOn s ∧ f.val ≠ 0 ∧ s.fld .pexFnCtl f.val 30 30 = 0 ∧ s.fld .pexFnCtl f.val 28 28 = 1) 3 (host0.setReg ⟨.pexFnCtl, 3, 0⟩ 0x90000000) := by
  dsimp only [hostRead, barUnit, clockOn, portOn]
  repeat' apply And.intro
  all_goals first | decide +kernel | simp

theorem witness_HostPort_hold :
    (fun (k : LinkId) (s : State) => portOn s ∧
      let l := Sp.get (fun _ => []) s.portq k.val
      s.fld .pexLinkCfg 0 31 31 = 1 ∧ s.linkUp k = false ∧ (∀ f ∈ s.xlat.flights, f.way.target.fn? = none)
        ∧ (∀ e fn q a d, .write (some e) fn q a d ∉ l)) 0 (keeping downed) := by
  have hq : Sp.get (fun _ => []) (keeping downed).portq 0 = [.write none 3 none 0x5000 [1, 2, 3], .msix 0 3] := by decide +kernel
  refine ⟨by unfold portOn; decide +kernel, by decide +kernel, by decide +kernel, by decide +kernel, fun e fn q a d h => ?_⟩
  have h : PortItem.write (some e) fn q a d ∈ [PortItem.write none 3 none 0x5000 [1, 2, 3], .msix 0 3] := hq ▸ h
  simp at h

theorem witness_HostPort_config :
    (fun (f : FnId) (w : ConfigWrite) (s : State) => portOn s ∧ s.fnVisible f = true ∧
      (w = .vfEnable true → s.fnPhysical f = true) ∧ w ≠ .vfEnable false ∧ w ≠ .msixEnable true ∧ (∀ x, w ≠ .read x) ∧
      (∀ n, w = .barSize n → s.fnPhysical f = true ∧ 10 ≤ n.toNat ∧ n.toNat ≤ 19)) 0 (.barSize 12) host0 := by
  refine ⟨by unfold portOn; decide +kernel, by decide +kernel, by decide +kernel, by decide +kernel, by decide +kernel, by simp, fun n h => ?_⟩
  have hn : n = 12 := by injection h with h; exact h.symm
  subst hn
  decide +kernel

theorem witness_DrayLinks :
    (fun (p : PortId) (x : Flit) (s : State) =>
        clockOn s ∧ s.portRuns p.val = true ∧
        let y := s.port p.val
        let rmax := s.fld .dryPortCfg p.val 27 24
        x.good = true ∧ x.seq = y.last + 1 ∧ y.queue = [] ∧ y.rest = 0 ∧ (∀ k ∈ x.payload, k.type.toNat < 10) ∧ (x.nak = true → y.idle + 1 < rmax)) 2 { flit 6 with payload := [packet 1 0xFFFFF2] } (portS 2 { last := 5, replay := [flit 4095] })
      ∧ (fun (p : PortId) (x : Flit) (s : State) =>
        clockOn s ∧ s.portRuns p.val = true ∧
        let y := s.port p.val
        x.good = true ∧ x.seq ≠ y.last + 1) 2 (flit 0) (portS 2 { last := 5 })
      ∧ (fun (p : PortId) (x : Flit) (s : State) =>
        clockOn s ∧ s.portRuns p.val = true ∧
        let y := s.port p.val
        x.good = false ∧ y.gap = true) 2 badFlit (portS 2 { gap := true })
      ∧ (fun (p : PortId) (x : Flit) (s : State) =>
        clockOn s ∧ s.portRuns p.val = true ∧
        let y := s.port p.val
        x.good = false ∧ y.gap = false) 2 badFlit (portS 2 {})
      ∧ (fun (p : PortId) (x : Flit) (s : State) =>
        clockOn s ∧ s.portRuns p.val = true ∧
        let y := s.port p.val
        y.replay ≠ []) 2 (flit 0) (portS 2 { replay := [flit 4095] })
      ∧ (fun (p : PortId) (x : Flit) (s : State) =>
        clockOn s ∧ s.portRuns p.val = true ∧
        let y := s.port p.val
        y.queue = [] ∧ y.rest = 0) 2 (flit 0) (portS 2 {})
      ∧ (fun (p : PortId) (lane : Fin 8) (corrected : Option Nat) (s : State) => clockOn s ∧ s.portState p.val ≠ 0 ∧ lane.val / 2 ∉ (s.port p.val).pairs ∧ (∀ n, corrected = some n → s.fld .dryPortCfg p.val 23 16 * 1024 < n)) 2 5 none (portS 2 { pairs := [0] })
      ∧ (fun (p : PortId) (lane : Fin 8) (s : State) (n : Nat) => clockOn s ∧ s.portState p.val ≠ 0 ∧ lane.val / 2 ∉ (s.port p.val).pairs ∧ n ≤ s.fld .dryPortCfg p.val 23 16 * 1024) 2 5 (portS 2 { pairs := [0] }) 0
      ∧ (fun (p : PortId) (s : State) => clockOn s ∧ s.fld .dryPortCfg p.val 31 31 = 1 ∧ s.fld .dryPortStat p.val 31 31 = 0 ∧ s.portRuns p.val = false) 2 (portS 0 {})
      ∧ (fun (p : PortId) (s : State) => clockOn s ∧ s.fld .dryPortCfg p.val 31 31 = 1 ∧ s.fld .dryPortStat p.val 31 31 = 0) 2 (portS 2 {})
      ∧ (fun (k : Packet) (s : State) (p : PortId) =>
        clockOn s ∧ k ∈ (s.port p.val).rx ∧ (∀ q : PortId, q.val < p.val → k ∉ (s.port q.val).rx) ∧
        let y := s.port p.val
        k.type.toNat < 8 ∧ s.fld .dryPortStat p.val 31 31 = 0 ∧ y.queue = [] ∧ y.rest = 0 ∧ s.flitRoom p.val = true) (packet 1 0xFFFF24) (received (packet 1 0xFFFF24) (portS 2 {})) 3
      ∧ (fun (k : Packet) (s : State) (o : PortId) =>
        clockOn s ∧
        let u := s.unload (· == k)
        let n := if 6 ≤ k.hop.toNat then 15 else pathNibble k.path k.hop.toNat
        let moved : Packet := { k with hop := k.hop + 1, layer := k.layer + if k.hop ≠ 0 ∧ k.dl.getLsbD (k.hop.toNat - 1) = true then 1 else 0 }
        n = o.val ∧ k.type.toNat < 10 ∧ s.portLive o.val = true ∧ (u.port o.val).queue = [] ∧ (u.port o.val).rest = 0 ∧ u.flitRoom o.val = true ∧ u.maySend o.val moved = true) (packet 1 0xFFFF24) (received (packet 1 0xFFFF24) (portS 2 { credits := creds })) 2
      ∧ (fun (k : Packet) (s : State) (o : PortId) =>
        clockOn s ∧
        let u := s.unload (· == k)
        let n := if 6 ≤ k.hop.toNat then 15 else pathNibble k.path k.hop.toNat
        let moved : Packet := { k with hop := k.hop + 1, layer := k.layer + if k.hop ≠ 0 ∧ k.dl.getLsbD (k.hop.toNat - 1) = true then 1 else 0 }
        n = o.val ∧ k.type.toNat < 10 ∧ s.portLive o.val = true ∧ (u.port o.val).queue = [] ∧ (u.port o.val).rest = 0 ∧ (u.flitRoom o.val = false ∨ u.maySend o.val moved = false)) (packet 1 0xFFFF24) (received (packet 1 0xFFFF24) (portS 2 {})) 2
      ∧ (fun (k : Packet) (s : State) =>
        clockOn s ∧
        let n := if 6 ≤ k.hop.toNat then 15 else pathNibble k.path k.hop.toNat
        (10 ≤ k.type.toNat ∨ (n < 12 ∧ s.portLive n = false) ∨ (12 ≤ n ∧ (n ≠ 15 ∨ k.dst ≠ s.ownPeer)))) (packet 1 0xFFFF24) (received (packet 1 0xFFFF24) (portS 0 {}))
      ∧ (fun (k : Packet) (s : State) =>
        clockOn s ∧
        let n := if 6 ≤ k.hop.toNat then 15 else pathNibble k.path k.hop.toNat
        k.type.toNat < 10 ∧ n = 15 ∧ k.dst = s.ownPeer) { packet 1 0xFFFFF4 with dst := 0 } (portS 2 {})
      ∧ (fun (p : PeerId) (s : State) (v : W32) => clockOn s ∧ s.dray.pendRt = [] ∧ BitVec.ofNat 12 (s.fld .dryRtSel 0 11 0) = p ∧ s.peerQuiet p = true) 7 (routes 2 []) 9
      ∧ (fun (p : PeerId) (s : State) (v : W32) => clockOn s ∧ s.dray.pendRt = [] ∧ BitVec.ofNat 12 (s.fld .dryRtSel 0 11 0) = p ∧ s.peerQuiet p = false) 7 (acking (routes 2 [])) 9
      ∧ (fun (p : PeerId) (s : State) (o : PortId) => clockOn s ∧ s.dray.pendRt = [] ∧ pathNibble ((s.route_ false p).setWidth 24) 0 = o.val ∧ s.portLive o.val = false ∧ p ∉ s.dray.onAlt ∧ (s.route_ true p).getLsbD 31 = true) 7 (routes 0 []) 2
      ∧ (fun (p : PeerId) (s : State) (o : PortId) => clockOn s ∧ s.dray.pendRt = [] ∧ pathNibble ((s.route_ false p).setWidth 24) 0 = o.val ∧ s.portState o.val = 2 ∧ s.portLive o.val = true ∧ p ∈ s.dray.onAlt) 7 (routes 2 [7]) 2
      ∧ (fun (p : PeerId) (s : State) (o : PortId) => clockOn s ∧ s.dray.pendRt = [] ∧ pathNibble ((s.route_ false p).setWidth 24) 0 = o.val ∧ s.portLive o.val = true ∧ p ∉ s.dray.onAlt) 7 (routes 2 []) 2
      ∧ (fun (p : PeerId) (s : State) (o : PortId) => clockOn s ∧ s.dray.pendRt = [] ∧ pathNibble ((s.route_ false p).setWidth 24) 0 = o.val ∧ s.portLive o.val = true ∧ p ∉ s.dray.onAlt) 7 (routes 2 []) 2
      ∧ (fun (p : PeerId) (alt : Bool) (v : W32) (s : State) => clockOn s ∧ s.dray.pendRt = [(p, alt, v)] ∧ s.peerQuiet p = true) 7 true 9 changing
      ∧ (fun (p : PeerId) (alt : Bool) (v : W32) (s : State) => clockOn s ∧ s.dray.pendRt = [(p, alt, v)] ∧ s.peerQuiet p = false) 7 true 9 (acking changing) := by
  dsimp only [clockOn]
  repeat' apply And.intro
  all_goals first | decide +kernel | simp

theorem witness_PeerTraffic :
    (fun (src : PeerId) (tag : Nat) (q : MemReq) (s : State) =>
        clockOn s ∧ q.watched = false ∧
        let r : Requester := { hmk := q.hmk, smask := q.smask, peer := true }
        q.op = .read ∧ dramOk s r q.dpa q.len false = true ∧ s.sleeps q.dpa = none) 5 7 get64 host0
      ∧ (fun (src : PeerId) (tag : Nat) (q : MemReq) (s : State) (c : Nat) =>
        clockOn s ∧ q.watched = false ∧
        let r : Requester := { hmk := q.hmk, smask := q.smask, peer := true }
        q.op = .read ∧ dramOk s r q.dpa q.len false = true ∧ s.sleeps q.dpa = some c ∧ s.chanFull c = false) 5 7 get64 asleep0 sleepC
      ∧ (fun (src : PeerId) (tag : Nat) (q : MemReq) (s : State) (c : Nat) => clockOn s ∧ q.watched = false ∧ s.sleeps q.dpa = some c ∧ s.chanFull c = true) 5 7 get64 fullC sleepC
      ∧ (fun (src : PeerId) (tag : Nat) (q : MemReq) (s : State) (d : List Byte) =>
        clockOn s ∧ q.watched = false ∧
        let r : Requester := { hmk := q.hmk, smask := q.smask, peer := true }
        q.op = .write d ∧ dramOk s r q.dpa d.length true = true ∧ s.sleeps q.dpa = none) 5 7 put2 host0 [1, 2]
      ∧ (fun (src : PeerId) (tag : Nat) (q : MemReq) (s : State) =>
        clockOn s ∧ q.watched = false ∧
        let r : Requester := { hmk := q.hmk, smask := q.smask, peer := true }
        q.dpa < windowBase ∧ s.dramAllows r q.dpa (reqWrites q) = false ∧ s.sleeps q.dpa = none) 5 7 { get64 with hmk := 6 } host0
      ∧ (fun (b : BenchId) (acc : Access) (x : Piece) (p : PeerId) (a : Nat) (tag : Nat) (rd : R5) (sx : Bool) (s : State) => loadWaits s b acc x tag rd sx ∧ x.target = .peer p a ∧ x.way.target = .peer p a ∧ (∀ f ∈ s.mem.acks, f.tag ≠ tag)) 3 load9 peerPiece 9 0x5000 9 9 true (reading peerPiece) := by
  dsimp only [loadWaits, clockOn]
  repeat' apply And.intro
  all_goals first | decide +kernel | simp

theorem witness_Collectives :
    (fun (q : HallId) (h : Hello) (c : Coll) (s : State) => clockOn s ∧ (s.quarter q).coll = some c ∧ c.met = false ∧ c.failed = none ∧ h = collExpects c.words ∧ c.todo = [] ∧ c.inbox = [] ∧ c.left ≠ 0) 1 (collExpects (coll4 0)) (collC 0 false) (collS 0 false)
      ∧ (fun (q : HallId) (h : Hello) (c : Coll) (s : State) => clockOn s ∧ (s.quarter q).coll = some c ∧ c.met = false ∧ c.failed = none ∧ h ≠ collExpects c.words) 1 { collExpects (coll4 0) with cid := 3 } (collC 0 false) (collS 0 false)
      ∧ (fun (q : HallId) (h : Hello) (c : Coll) (s : State) => clockOn s ∧ (s.quarter q).coll = some c ∧ c.met = false ∧ c.failed = none) 1 (collExpects (coll4 0)) (collC 0 false) (collS 0 false)
      ∧ (fun (q : HallId) (chunk : Nat) (elem : Nat) (data : List Byte) (d : List Byte) (c : Coll) (s : State) (s1 : State) =>
        clockOn s ∧ (s.quarter q).coll = some c ∧ c.met = true ∧ c.failed = none ∧ c.todo = [] ∧ c.inbox = [] ∧ c.wait = none ∧ c.got = [] ∧ (s.quarter q).ringWait = none ∧ cFmt c.words = 4 ∧ cOp c.words = 0 ∧ cAcc c.words = false ∧ chunk ≠ cRank c.words ∧
        let n := data.length / 4
        let b : Block := ⟨chunk, elem, false, data⟩
        let u := (s.unload (Packet.isBlock · b)).updColl q fun c => { c with inbox := [b] }
        n < c.left ∧ State.collRead q (pageParts (srcAt c.words elem) (n * 4)) [] u = (s1, .ok d) ∧ n ≠ 0 ∧ (s1.quarter q).coll = some { c with inbox := [b] } ∧ (s1.quarter q).ringWait = none) 1 0 4 (List.replicate 256 5) (List.replicate 256 0) (collC 0 true) (collS 0 true) (((State.collRead (1) (pageParts (srcAt (collC 0 true).words (4)) ((List.replicate 256 5).length / 4 * 4)) [] (((collS 0 true).unload (Packet.isBlock · ⟨(0), (4), false, (List.replicate 256 5)⟩)).updColl (1) fun z => { z with inbox := [⟨(0), (4), false, (List.replicate 256 5)⟩] }))).1)
      ∧ (fun (cid : BitVec 16) (origin : PeerId) (why : BitVec 8) (s : State) => clockOn s ∧ s.withCid cid = []) 3 5 2 (collS 0 true)
      ∧ (fun (cid : BitVec 16) (origin : PeerId) (why : BitVec 8) (s : State) (x : HallId) (w : List W64) (c : Coll) => clockOn s ∧ s.withCid cid = [(x, w)] ∧ (s.quarter x).coll = some c ∧ (cid, origin) ∉ s.dray.forwarded) 7 5 2 (collS 0 true) 1 (coll4 0) (collC 0 true)
      ∧ (fun (cid : BitVec 16) (origin : PeerId) (why : BitVec 8) (s : State) => clockOn s) 7 5 2 (collS 0 true)
      ∧ (fun (q : HallId) (s : State) => clockOn s ∧ s.fld .alyQStatus q.val 31 31 = 0 ∧ s.fld .alyQStatus q.val 29 29 = 1) 1 (collS 0 true) := by
  dsimp only [clockOn]
  repeat' apply And.intro
  all_goals first | decide +kernel | simp

theorem witness_PeerTraffic_ack :
    (fun (f : Flight) (b : BenchId) (p : PeerId) (tag : Nat) (s : State) => clockOn s ∧ s.mem.acks.find? (·.toPeer p tag) = some f
      ∧ f.who.eng = .core b ∧ (∀ a ps, (s.bench b).core.stall ≠ some (.response a ps))) ackF 3 7 9 (acking host0) := by
  refine ⟨by unfold clockOn; decide +kernel, by decide +kernel, by decide +kernel, fun a ps => ?_⟩
  have h : ((acking host0).bench 3).core.stall = none := by decide +kernel
  rw [h]
  simp

theorem witness_Collectives_start :
    (fun (form : Nat) (q : HallId) (s s1 s3 : State) (d e : List Byte) => quarterWakes s q ∧
      let s0 := s.updQuarter q fun x => { x with seen := s.bell (BitVec.ofNat 16 (s.fld .alyQRingCfg q.val 15 0)), reread := false }
      let cb := wordsOf 4 d
      let s2 := s1.updQuarter q fun x => { x with err := false, word3 := cb.getD 3 0 }
      let head : W32 := (cb.getD 1 0).setWidth 32
      let w := wordsOf 16 e
      s0.quarterRead q 0 128 = (s1, .ok d) ∧ wordBits cb 2 63 63 = 0 ∧ head ≠ (cb.getD 0 0).setWidth 32 ∧
      s2.quarterRead q (128 * (1 + head.toNat % 2 ^ ringLog (s2.fld .alyQRingCfg q.val 19 16))) 128 = (s3, .ok e) ∧
      cForm w = form ∧ collOk w = true ∧ cCid w ∉ s3.dray.held ∧ cP w ≠ 1 ∧ (s3.quarter q).early = []) 0 1 (quart (coll4 0) {})
      (cbRd (quart (coll4 0) {}) 1).1 (dsRd (quart (coll4 0) {}) 1).1
      (rdData (cbRd (quart (coll4 0) {}) 1).2) (rdData (dsRd (quart (coll4 0) {}) 1).2) := by
  unfold quarterWakes clockOn
  decide +kernel

theorem witness_ShelerPower :
    (fun (samples : List (Nat × Int)) (n : Nat) (v : Int) (s : State) => watchOn s ∧ samples = [(n, v)] ∧ n < 144) [(9, 401)] 9 401 (hot [(9, 390)] [])
      ∧ (fun (samples : List (Nat × Int)) (k : ShopId) (x : Int) (s : State) => watchOn s ∧ (samples.foldl State.sampleOne s).hottest (4 * k.val) 4 = some x ∧ s.fld .shlShopStat k.val 28 26 ≠ 2) [(9, 401)] 2 401 (hot [(9, 401)] [(2, 1000)])
      ∧ (fun (k : ShopId) (x : Int) (s : State) => watchOn s ∧ s.hottest (4 * k.val) 4 = some x ∧ 0 < s.fld .shlShopStat k.val 28 26 ∧ 1000 ≤ Sp.get (fun _ => 0) s.sheler.leave k.val) 2 401 (hot [(9, 401)] [(2, 1000)])
      ∧ (fun (k : ShopId) (s : State) => clockOn s ∧ s.divWanted k.val = 4) 2 (shopAt 0x10000000)
      ∧ (fun (k : ShopId) (s : State) => clockOn s ∧ s.divWanted k.val < 4) 2 (shopAt 0)
      ∧ (fun (s : State) => clockOn s) (shopAt 0)
      ∧ (fun (k : ShopId) (s : State) => watchOn s ∧ s.fld .shlShopStat k.val 28 26 = 4 ∧ k ∉ s.sheler.dwelt ∧ max 1 (s.fld .shlFilt 0 15 0) ≤ s.fld .shlShopStat k.val 15 0 ∧ (∀ q, (s.quarter q).coll = none)) 2 (shopAt 0x1000FFFF)
      ∧ (fun (sensor : Byte) (t1 : Int) (t2 : Int) (s : State) => watchOn s ∧ 64 ≤ sensor.toNat ∧ sensor.toNat < 144 ∧ 115 * 4 ≤ t1 ∧ 115 * 4 ≤ t2) 100 460 461 host0
      ∧ (fun (t1 : Int) (s : State) => watchOn s ∧ t1 < 115 * 4) 459 host0
      ∧ (fun (s : State) => watchOn s) host0
      ∧ (fun (mean : Nat) (s : State) =>
        watchOn s ∧ s.sheler.acting = [] ∧
        let cap := min 1900 (s.fld .pwrLimit 0 11 0)
        cap < mean ∧ s.sheler.above = 1 ∧ s.fld .pwrStat 0 2 0 < 3) 1901 (power 1 0 2)
      ∧ (fun (mean : Nat) (s : State) =>
        watchOn s ∧ s.sheler.acting = [] ∧
        let cap := min 1900 (s.fld .pwrLimit 0 11 0)
        mean ≤ cap ∧ 10 * mean < 9 * cap ∧ s.sheler.under = 19 ∧ 0 < s.fld .pwrStat 0 2 0) 800 ((power 0 19 2).setReg ⟨.pwrLimit, 0, 0⟩ 1000)
      ∧ (fun (mean : Nat) (s : State) =>
        watchOn s ∧ s.sheler.acting = [] ∧
        let cap := min 1900 (s.fld .pwrLimit 0 11 0)
        mean ≤ cap ∧ 9 * cap ≤ 10 * mean) 950 ((power 0 0 2).setReg ⟨.pwrLimit, 0, 0⟩ 1000)
      ∧ (fun (s : State) => clockOn s ∧ s.ready = true ∧ s.fld .pwrStat 0 31 30 = 0 ∧ s.fld .pwrCtl 0 15 0 ≠ 0 ∧ s.deviceIdle = true) (mode 0)
      ∧ (fun (s : State) => watchOn s ∧ s.rootOn = true ∧ s.fld .pwrStat 0 31 30 = 1 ∧ (∀ p, p < 12 → s.portState p = 0) ∧ s.moversBusy = false) (mode 1)
      ∧ (fun (s : State) => watchOn s ∧ s.rootOn = true ∧ s.fld .pwrStat 0 31 30 ≠ 1) (mode 0)
      ∧ (fun (s : State) => watchOn s ∧ s.fld .pwrStat 0 31 30 = 2) (mode 2)
      ∧ (fun (n : Nat) (s : State) => watchOn s ∧ onlyRule s n) 7 rule7 := by
  dsimp only [watchOn, onlyRule, clockOn]
  repeat' apply And.intro
  all_goals first | decide +kernel | simp

theorem witness_RegisterWrites :
    (fun (off : Nat) (s : State) (r : Reg) => portOn s ∧ s.fld .pwrStat 0 31 30 ≠ 2 ∧ off % 4 = 0 ∧ s.pathMsix .pf off = none ∧ s.pathReg .pf off = some r ∧ r.kind ∈ plainKinds) ((Reg.mk .pwrLimit 0 0).off) host0 (⟨.pwrLimit, 0, 0⟩)
      ∧ (fun (off : Nat) (s : State) (r : Reg) => portOn s ∧ s.fld .pwrStat 0 31 30 ≠ 2 ∧ off % 4 = 0 ∧ s.pathMsix .pf off = none ∧ s.pathReg .pf off = some r ∧ r.kind ∈ mouldKinds) ((Reg.mk .pexAwinOff 2 0).off) host0 (⟨.pexAwinOff, 2, 0⟩)
      ∧ (fun (off : Nat) (s : State) (r : Reg) => portOn s ∧ s.fld .pwrStat 0 31 30 ≠ 2 ∧ off % 4 = 0 ∧ s.pathMsix .pf off = none ∧ s.pathReg .pf off = some r ∧ (r.kind = .benXjSp ∨ r.kind = .benXjSl)) ((Reg.mk .benXjSp 3 0).off) host0 (⟨.benXjSp, 3, 0⟩)
      ∧ (fun (off : Nat) (s : State) => portOn s ∧ s.fld .pwrStat 0 31 30 ≠ 2 ∧ off % 4 = 0 ∧ s.pathMsix .pf off = none ∧ s.pathReg .pf off = none) 0x00000FFC host0
      ∧ (fun (mask : W32) (m : W32) (off : Nat) (r : Reg) (s : State) => portOn s ∧ s.moulds = [(off, m)] ∧ regAt off = some r ∧ r.kind ∈ mouldKinds ∧ r.off = off ∧ off ∉ s.badMoulds ∧ pourNames mask off = some r) 0xFFFFFFFF 0x80000000 ((Reg.mk .pexAwinOff 2 0).off) (⟨.pexAwinOff, 2, 0⟩) (moulded (Reg.mk .pexAwinOff 2 0).off)
      ∧ (fun (mask : W32) (m : W32) (off : Nat) (r : Reg) (s : State) => portOn s ∧ s.moulds = [(off, m)] ∧ regAt off = some r ∧ r.kind ∈ mouldKinds ∧ r.off = off ∧ off ∉ s.badMoulds ∧ pourNames mask off = none) 0 0x80000000 ((Reg.mk .pexAwinOff 2 0).off) (⟨.pexAwinOff, 2, 0⟩) (moulded (Reg.mk .pexAwinOff 2 0).off)
      ∧ (fun (off : Nat) (lot : Nat) (v : W32) (s : State) => portOn s ∧ Sp.find s.posted 10 = some (off, v, lot)) ((Reg.mk .hmkLotData 0 0).off) 7 5 (postedAt 10 (Reg.mk .hmkLotData 0 0).off 5 7)
      ∧ (fun (off : Nat) (lot : Nat) (v : W32) (s : State) (r : Reg) => portOn s ∧ Sp.find s.posted 4 = some (off, v, lot) ∧ regAt off = some r ∧ r.kind ∈ [RegKind.shlRuleLo, .shlRuleHi, .shlSensSel]) ((Reg.mk .shlRuleLo 7 0).off) 0 5 (postedAt 4 (Reg.mk .shlRuleLo 7 0).off 5 0) (⟨.shlRuleLo, 7, 0⟩)
      ∧ (fun (off : Nat) (s : State) => portOn s ∧ off ∈ s.pouring) 5 { host0 with pouring := [5, 9] }
      ∧ (fun (off : Nat) (k : Nat) (b : BenchId) (p : Reg) (r : Reg) (s : State) => portOn s ∧ blockBench off = (k, b.val) ∧ protReg k b.val = some p ∧ regAt off = some r ∧ (s.reg p).getLsbD 0 = false) ((Reg.mk .benXjSp 3 0).off) 17 3 (⟨.benProt, 3, 0⟩) (⟨.benXjSp, 3, 0⟩) (host0.setReg ⟨.benProt, 3, 0⟩ 0)
      ∧ (fun (k : Nat) (b : BenchId) (p : Reg) (s : State) => portOn s ∧ protReg k b.val = some p) 17 3 (⟨.benProt, 3, 0⟩) host0
      ∧ (fun (k : Nat) (off : Nat) (b : BenchId) (x : W32) (p : Reg) (r : Reg) (s : State) (mould : Bool) => portOn s ∧ protReg k b.val = some p ∧ regAt off = some r ∧ blockBench off = (k, if k < 17 then 0 else b.val) ∧ (s.reg p).getLsbD 0 = true ∧ r.off ≠ p.off ∧ x &&& maskOf (fun t => t == .rwm || (!mould && (t == .rw || t == .rwp || t == .rwa || t == .w1c))) r.kind.fields ≠ 0) 17 ((Reg.mk .benXjSp 3 0).off) 3 1 (⟨.benProt, 3, 0⟩) (⟨.benXjSp, 3, 0⟩) (host0.setReg ⟨.benProt, 3, 0⟩ 1) false
      ∧ (fun (k : Nat) (off : Nat) (b : BenchId) (x : W32) (p : Reg) (r : Reg) (s : State) => portOn s ∧ protReg k b.val = some p ∧ regAt off = some r ∧ blockBench off = (k, if k < 17 then 0 else b.val) ∧ (s.reg p).getLsbD 0 = true ∧ r.off ≠ p.off ∧ x &&& r.writable ≠ 0) 17 ((Reg.mk .benXjSp 3 0).off) 3 1 (⟨.benProt, 3, 0⟩) (⟨.benXjSp, 3, 0⟩) (host0.setReg ⟨.benProt, 3, 0⟩ 1) := by
  dsimp only [portOn]
  repeat' apply And.intro
  all_goals first | decide +kernel | simp

theorem witness_EnablesAndDrains :
    (fun (c : CarterId) (s : State) => clockOn s ∧ s.carterFld c 3 31 31 = 0 ∧ s.carterFld c 3 29 29 = 0) (.bench 6) (carterS 0)
      ∧ (fun (c : CarterId) (s : State) => clockOn s ∧ s.carterFld c 3 31 31 = 1) (.bench 6) (carterS 4)
      ∧ (fun (c : CarterId) (s : State) => clockOn s ∧ s.carterFld c 3 31 31 = 1 ∧ (s.carter c).loc = [] ∧ (s.carter c).fore = [] ∧ s.carterQuiet c = true ∧ (∀ b, carterBench c = some b → s.settled (.ladle b) = true)) (.bench 6) (carterS 6)
      ∧ (fun (c : CarterId) (s : State) => clockOn s ∧ s.carterFld c 2 31 31 = 0) (.bench 6) (carterS 0)
      ∧ (fun (c : CarterId) (s : State) => clockOn s ∧ s.localBusy c = false) (.bench 6) (carterS 1)
      ∧ (fun (c : CarterId) (s : State) => clockOn s ∧ s.localBusy c = true) (.bench 6) { carterS 1 with mem := { (carterS 1).mem with acks := [{ ackF with who := { eng := .carter (.bench 6), run := 1 } }] } }
      ∧ (fun (h : HopperId) (s : State) => clockOn s ∧ s.fld .hopStatus h.val 31 31 = 0 ∧ s.fld .hopStatus h.val 29 29 = 0) 7 (hopperN 0)
      ∧ (fun (h : HopperId) (s : State) => clockOn s ∧ s.fld .hopStatus h.val 31 31 = 1 ∧ s.hopperBusy h = false) 7 (hopperN 0xC0000000)
      ∧ (fun (b : BenchId) (s : State) => clockOn s ∧ s.fld .fmnBenchCtl b.val 30 30 = 0 ∧ s.fld .fmnBenchCtl b.val 28 28 = 0 ∧ (s.bench b).excluded = false ∧ s.fld .benXstat b.val 31 31 = 0 ∧ s.resetting ≠ some b) 33 (benchS 0)
      ∧ (fun (b : BenchId) (s : State) => clockOn s ∧ (s.bench b).excluded = true ∧ s.fld .fmnBenchCtl b.val 30 30 = 0) 33 ((benchS 0).updBench 33 fun b => { b with excluded := true })
      ∧ (fun (b : BenchId) (s : State) => clockOn s ∧ s.fld .fmnBenchCtl b.val 30 30 = 1 ∧ (s.bench b).slot = none) 33 (benchS 0x60000000)
      ∧ (fun (f : FnId) (s : State) => clockOn s ∧ f.val ≠ 0 ∧ s.fld .pexFnCtl f.val 30 30 = 0 ∧ s.fld .pexFnCtl f.val 28 28 = 0) 3 (fnS 0)
      ∧ (fun (r : RingId) (s : State) => clockOn s ∧ s.fnOn (s.ringFn r) = true ∧ s.fld .cthRingCfg r.val 30 30 = 0) 9 (ringN 0)
      ∧ (fun (r : RingId) (s : State) => clockOn s ∧ s.fnOn (s.ringFn r) = true ∧ s.fld .cthRingCfg r.val 30 30 = 1 ∧ (s.ring r).entries = [] ∧ (s.ring r).slot = none) 9 (ringN 0xC0000000)
      ∧ (fun (p : PortId) (s : State) => clockOn s ∧ s.firmwareIn = true ∧ s.fld .dryPortStat p.val 31 31 = 0 ∧ s.fld .dryPortCfg p.val 31 31 = 0) 7 firm
      ∧ (fun (p : PortId) (s : State) => clockOn s ∧ s.fld .dryPortStat p.val 31 31 = 1 ∧ (s.port p.val).queue = [] ∧ (s.port p.val).replay = []) 7 (firm.setReg ⟨.dryPortStat, 7, 0⟩ 0x80000000)
      ∧ (fun (q : HallId) (s : State) => clockOn s ∧ s.fld .alyQStatus q.val 31 31 = 1 ∧ (s.quarter q).coll = none ∧ s.collQuiet q = true) 1 (firm.setReg ⟨.alyQStatus, 1, 0⟩ 0x80000000)
      ∧ (fun (q : HallId) (s : State) => clockOn s ∧ s.fld .alyQStatus q.val 31 31 = 0 ∧ s.fld .alyQStatus q.val 29 29 = 0) 1 firm := by
  dsimp only [clockOn]
  repeat' apply And.intro
  all_goals first | decide +kernel | simp

theorem witness_EnablesAndDrains_fn :
    (fun (f : FnId) (s : State) => clockOn s ∧ f.val ≠ 0 ∧ s.fld .pexFnCtl f.val 30 30 = 1 ∧ s.fnSlots f = []) 3 (fnS 0x60000000#32) := by
  refine ⟨by unfold clockOn; decide +kernel, by decide, by decide +kernel, ?_⟩
  have hr : ∀ r, ((fnS 0x60000000#32).ring r).slot = none := fun r => rfl
  have hs : ∀ n, (fnS 0x60000000#32).slotRing n = none := fun n => by
    unfold State.slotRing
    rw [List.find?_eq_none]
    intro r _
    have h := hr r
    rw [h]
    simp
  unfold State.fnSlots
  rw [List.filter_eq_nil_iff]
  intro n _
  rw [hs]
  simp

theorem witness_StartUp :
    (fun (s : State) => s.departed = false ∧ s.sec.perst = true) { host0 with sec := { host0.sec with perst := true } }
      ∧ (fun (s : State) => s.departed = false) host0
      ∧ (fun (m : Mbox) (s : State) => mailboxOpen s ∧ m.fail = false ∧ s.phase = 1) { obj := 0x8000, cap := 300 } (atPhase 1)
      ∧ (fun (m : Mbox) (s : State) (helper : List Byte) (es : List (BitVec 128)) (sig : List Byte) => mailboxOpen s ∧ m.fail = false ∧ s.phase = 1 ∧ helper.length = 4096 ∧ es.length ≤ 4096 ∧ sig.length ≤ 1280) { obj := 0x8000, cap := 300 } (atPhase 1) (List.replicate 4096 7) [5] [1, 2]
      ∧ (fun (m : Mbox) (s : State) (d : List Byte) => mailboxOpen s ∧ m.fail = false ∧ s.phase = 1 ∧ d ≠ [] ∧ fieldVal d 0 4 ≠ 0x50524543) { obj := 0x8000, cap := 300 } (atPhase 1) [1]
      ∧ (fun (s : State) => watchOn s ∧ s.fld .secMboxStat 0 31 31 = 0 ∧ s.runtimeStopped = false ∧ s.phase ≠ 1) (atPhase 2)
      ∧ (fun (s : State) => watchOn s ∧ s.fld .secMboxStat 0 31 31 = 0 ∧ s.runtimeStopped = false ∧ s.phase = 1 ∧ (s.fn 0).busMaster = false) (host0.setFld .secState 0 31 28 1)
      ∧ (fun (m : Mbox) (s : State) => watchOn s ∧ s.fld .secMboxStat 0 31 31 = 0 ∧ s.runtimeStopped = false ∧ s.phase = 1 ∧ (s.fn 0).busMaster = true ∧ m.fail = true) { obj := 0x8000, cap := 300, fail := true } (atPhase 1)
      ∧ (fun (s : State) => watchOn s ∧ s.sec.fetched = true ∧ s.fld .secState 0 27 27 = 0 ∧ s.sec.unverified = none) (imaged 1 0)
      ∧ (fun (s : State) (msg : List Byte) (sig : List Byte) => watchOn s ∧ s.sec.fetched = true ∧ s.fld .secState 0 27 27 = 0 ∧ s.sec.unverified = some (msg, sig)) { imaged 1 0 with sec := { (imaged 1 0).sec with unverified := some ([1], [2]) } } [1] [2]
      ∧ (fun (m : Mbox) (k : BitVec 4) (s : State) => watchOn s ∧ s.fld .secMboxStat 0 31 31 = 0 ∧ (s.fn 0).busMaster = true ∧ m.fail = false ∧ s.allowed 2 k.toNat = true) { obj := 0x8000, cap := 300 } 2 (imaged 5 0)
      ∧ (fun (m : Mbox) (k : BitVec 4) (s : State) => watchOn s ∧ s.fld .secMboxStat 0 31 31 = 0 ∧ (s.fn 0).busMaster = true ∧ m.fail = false ∧ s.allowed 2 k.toNat = false) { obj := 0x8000, cap := 300 } 2 (atPhase 1)
      ∧ (fun (k : BitVec 4) (i : Image) (s : State) => mailboxOpen s ∧ s.ready = true ∧ Sp.find s.sec.staged k.toNat = some i) 2 firmware (imaged 5 0)
      ∧ (fun (m : Mbox) (s : State) (d : List Byte) => mailboxOpen s ∧ m.fail = false ∧ (s.phase = 1 ∨ s.phase = 2) ∧ s.moulds = [] ∧ s.posted = [] ∧ fieldVal d 0 4 ≠ 0x43464731) { obj := 0x8000, cap := 300 } (atPhase 2) [1]
      ∧ (fun (m : Mbox) (r : Reg) (s : State) => mailboxOpen s ∧ m.fail = false ∧ (s.phase = 1 ∨ s.phase = 2) ∧ s.moulds = [] ∧ s.posted = [] ∧ r.kind ∈ plainKinds ∧ regAt r.off = some r ∧ r.off % 4 = 0 ∧ 2 ≤ blockOf r.off ∧ blockOf r.off < 17) { obj := 0x8000, cap := 300 } (⟨.pwrLimit, 0, 0⟩) (atPhase 2)
      ∧ (fun (ts : List SelfTest) (s : State) => clockOn s ∧ s.phase = 4 ∧ s.firmwareIn = true ∧ s.sec.tested = false ∧ s.sec.entries = [] ∧ s.sec.unverified = none ∧ ts = []) [] (imaged 4 0)
      ∧ (fun (ts : List SelfTest) (b : BenchId) (u : Byte) (s : State) => clockOn s ∧ s.phase = 4 ∧ s.firmwareIn = true ∧ s.sec.tested = false ∧ s.sec.entries = [] ∧ s.sec.unverified = none ∧ ts = [{ bench := b, unit_ := some u }]) ([{ bench := 3, rows := [], unit_ := some 7 }]) 3 7 (imaged 4 0)
      ∧ (fun (s : State) => clockOn s ∧ s.phase = 4 ∧ s.firmwareIn = true ∧ s.sec.tested = true ∧ s.yardDone = true ∧ s.sec.unverified = none ∧ s.fld .secState 0 27 27 = 1 ∧ s.sec.runtime = true ∧ (∀ r ∈ s.heldRecs, r.fn = 0) ∧ s.sheler.tripSeen = none) (tested 1)
      ∧ (fun (s : State) => clockOn s ∧ s.sec.tested = false) (imaged 4 0)
      ∧ (fun (s : State) => watchOn s ∧ s.sec.runtime = true) (imaged 5 0) := by
  dsimp only [watchOn, mailboxOpen, clockOn]
  repeat' apply And.intro
  all_goals first | decide +kernel | simp

theorem witness_ServicePaths :
    (fun (m : Mbox) (s : State) => mailboxOpen s ∧ m.fail = false ∧ s.linkUp (s.linkOf 0) = true) { obj := 0x8000, cap := 300 } (imaged 5 0)
      ∧ (fun (m : Mbox) (s : State) => mailboxOpen s ∧ m.fail = false ∧ s.linkUp (s.linkOf 0) = true ∧ s.fld .secState 0 27 27 = 1) { obj := 0x8000, cap := 300 } (imaged 5 1)
      ∧ (fun (m : Mbox) (s : State) => mailboxOpen s ∧ m.fail = false ∧ s.linkUp (s.linkOf 0) = true ∧ s.fld .secState 0 27 27 = 1) { obj := 0x8000, cap := 300 } (imaged 5 1)
      ∧ (fun (m : Mbox) (s : State) => mailboxOpen s ∧ m.fail = false ∧ s.linkUp (s.linkOf 0) = true ∧ s.fld .secState 0 27 27 = 0) { obj := 0x8000, cap := 300 } (imaged 5 0)
      ∧ (fun (s : State) => portOn s) host0
      ∧ (fun (off : Nat) (r : Reg) (s : State) => portOn s ∧ regAt off = some r ∧ r.kind ∈ plainKinds ∧ off % 4 = 0 ∧ blockOf off ≤ 4) ((Reg.mk .pwrLimit 0 0).off) (⟨.pwrLimit, 0, 0⟩) host0
      ∧ (fun (off : Nat) (s : State) => portOn s ∧ 4 < blockOf off) 0x700100 host0
      ∧ (fun (s : State) => portOn s) (imaged 5 0)
      ∧ (fun (s : State) => portOn s) (imaged 5 0)
      ∧ (fun (s : State) => portOn s ∧ s.fld .secState 0 27 27 = 1) (imaged 5 1)
      ∧ (fun (s : State) => portOn s ∧ s.fld .secState 0 27 27 = 0) (imaged 5 0)
      ∧ (fun (s : State) => s.departed = false ∧ s.sec.straps.sbmode = 0) (strapped 0)
      ∧ (fun (s : State) => s.departed = false ∧ s.sec.straps.sbmode = 1) (strapped 1)
      ∧ (fun (s : State) => s.departed = false) host0
      ∧ (fun (s : State) => s.departed = false) host0
      ∧ (fun (s : State) => s.departed = false) host0
      ∧ (fun (s : State) => s.departed = false) host0 := by
  dsimp only [mailboxOpen, portOn]
  repeat' apply And.intro
  all_goals first | decide +kernel | simp

theorem witness_StepRunsFront :
    (fun (c : Instr) (q : List Instr) (s : State) => s.pending = c :: q) .getState [.idcode] { host0 with pending := [.getState, .idcode] } := rfl

theorem witness_DepartedStops :
    (fun (c : Instr) => c = .powerOn ∨ c = .powerOff ∨ c = .perstAssert) .perstAssert
      ∧ (fun (c : Instr) (s : State) => c ≠ .powerOn ∧ c ≠ .powerOff ∧ c ≠ .perstAssert ∧ s.departed = true) .idcode { host0 with departed := true }
      ∧ (fun (s : State) => s.departed = false) host0 := by
  refine ⟨Or.inr (Or.inr rfl), ⟨?_, ?_, ?_, rfl⟩, by decide +kernel⟩ <;> exact fun h => nomatch h

theorem witness_LevelsStayLegal :
    (fun (s t : State) => legalLevels s ∧ step s = .next t) (core3 { c0 with loops := [] }) (core3 { c0 with loops := [] }) := by
  refine ⟨⟨?_, fun n => ⟨?_, fun k => ?_⟩⟩, rfl⟩
  · unfold coreLegal; decide +kernel
  · show wordBits [] 2 5 4 ≤ 1
    decide
  · show coreLegal {}
    unfold coreLegal
    decide

theorem witness_MemoryStaysCanonical :
    (fun (s t : State) => memoryCanonical s ∧ step s = .next t) memS memS := by
  refine ⟨?_, rfl⟩
  unfold memoryCanonical
  decide +kernel

end Sys2Proof.Tests
end

section
/-! SUPPORT. Fields of a register word: which bits a mask holds, and what a field reads after a field has been replaced. -/

namespace Sys2Proof.Machine

/-- Bit `i` of the mask of [hi:lo]. -/
theorem getLsbD_fieldMask (hi lo i : Nat) : (fieldMask hi lo).getLsbD i = decide (i < 32 ∧ lo ≤ i ∧ i ≤ hi) := by
  simp only [fieldMask, BitVec.getLsbD_ofNat, Nat.testBit_mul_two_pow, Nat.testBit_two_pow_sub_one]
  rw [Bool.eq_iff_iff]
  simp only [Bool.and_eq_true, decide_eq_true_eq]
  omega

/-- Bit `i` of a word whose field [hi:lo] has taken `x`. -/
theorem getLsbD_setBits (v : W32) (hi lo x i : Nat) (h : i < 32) :
    (setBits v hi lo x).getLsbD i = if lo ≤ i ∧ i ≤ hi then x.testBit (i - lo) else v.getLsbD i := by
  simp only [setBits, BitVec.getLsbD_or, BitVec.getLsbD_and, BitVec.getLsbD_not, getLsbD_fieldMask, BitVec.getLsbD_ofNat,
    Nat.testBit_mul_two_pow, Nat.testBit_mod_two_pow, h, decide_true, true_and, Bool.true_and]
  by_cases hin : lo ≤ i ∧ i ≤ hi
  · have hlt : i - lo < hi + 1 - lo := by omega
    simp [hin, hlt]
  · have hout : ¬ (lo ≤ i ∧ i - lo < hi + 1 - lo) := by omega
    rw [not_and] at hout
    by_cases hlo : lo ≤ i
    · simp [hin, hout hlo]
    · simp [hlo]

/-- Bit `j` of the value of field [hi:lo]. -/
theorem testBit_bits (v : W32) (hi lo j : Nat) : (bits v hi lo).testBit j = (decide (j < hi + 1 - lo) && v.getLsbD (lo + j)) := by
  simp only [bits, Nat.testBit_mod_two_pow, Nat.testBit_div_two_pow, BitVec.testBit_toNat, Nat.add_comm]

/-- A field reads as last replaced, as far as its width goes. -/
theorem bits_setBits_same (v : W32) {hi lo : Nat} (x : Nat) (h : hi < 32) :
    bits (setBits v hi lo x) hi lo = x % 2 ^ (hi + 1 - lo) := by
  apply Nat.eq_of_testBit_eq
  intro j
  rw [testBit_bits, Nat.testBit_mod_two_pow]
  by_cases hj : j < hi + 1 - lo
  · rw [getLsbD_setBits _ _ _ _ _ (by omega), if_pos (by omega), Nat.add_sub_cancel_left]
  · simp [hj]

/-- A write under mask `m` shows the written value at the bits of `m`. -/
theorem merged_and_mask (a v m : W32) : (a &&& ~~~ m ||| v &&& m) &&& m = v &&& m := by
  ext i hi
  simp only [BitVec.getElem_and, BitVec.getElem_or, BitVec.getElem_not]
  cases m[i] <;> simp

/-- A write under an empty mask keeps the word. -/
theorem merged_zero (a v : W32) : a &&& ~~~ 0 ||| v &&& 0 = a := by
  show a &&& ~~~ 0#32 ||| v &&& 0#32 = a
  rw [BitVec.and_zero, BitVec.not_zero, BitVec.and_allOnes, BitVec.or_zero]

end Sys2Proof.Machine
end

section
/-! SUPPORT. Registers of the state: reads after the shared updates, error records, writes by type code, and commands of the
host port. -/

namespace Sys2Proof.Machine.State

open Sys2Proof.Claims

variable (s : State)

/-- A register's word depends on the applied copies alone. -/
theorem reg_congr {s t : State} (h : s.regs = t.regs) (r : Reg) : s.reg r = t.reg r := by
  simp only [reg, h]

theorem reg_setFld_same (k : RegKind) (u hi lo x : Nat) :
    (s.setFld k u hi lo x).reg ⟨k, u, 0⟩ = setBits (s.reg ⟨k, u, 0⟩) hi lo x := reg_setReg_same s _ _

theorem reg_setFld_other (k : RegKind) (u hi lo x : Nat) (q : Reg) (h : q.off ≠ Reg.off ⟨k, u, 0⟩) :
    (s.setFld k u hi lo x).reg q = s.reg q := reg_setReg_other s _ q _ h

/-- A field reads as last stored, as far as its width goes. -/
theorem fld_setFld_same (k : RegKind) (u lo x : Nat) {hi : Nat} (h : hi < 32) :
    (s.setFld k u hi lo x).fld k u hi lo = x % 2 ^ (hi + 1 - lo) := by
  rw [fld, reg_setFld_same, bits_setBits_same _ _ h]

/-- A counting field after an addition: the sum, or all ones. -/
theorem fld_satAdd_same (k : RegKind) (u lo n : Nat) {hi : Nat} (h : hi < 32) :
    (s.satAdd k u hi lo n).fld k u hi lo = min (s.fld k u hi lo + n) (2 ^ (hi + 1 - lo) - 1) := by
  rw [satAdd, fld_setFld_same s k u lo _ h]
  have hpos : 0 < 2 ^ (hi + 1 - lo) := Nat.two_pow_pos _
  exact Nat.mod_eq_of_lt (by omega)

/-- A stored register takes the word, and no other changes. -/
theorem regTakes_setReg (r : Reg) (v : W32) : regTakes s (s.setReg r v) r v :=
  ⟨reg_setReg_same s r v, fun q hq => reg_setReg_other s r q v hq⟩

/-- So it does where more than registers changes afterwards. -/
theorem regTakes_of_regs {s t : State} {r : Reg} {v : W32} (h : t.regs = (s.setReg r v).regs) : regTakes s t r v := by
  refine ⟨?_, fun q hq => ?_⟩
  · rw [reg_congr h, reg_setReg_same]
  · rw [reg_congr h, reg_setReg_other s r q v hq]

/-! ### Error records -/

/-- A record reaches the registers only as the count of lost ones in SEC_STATE (17 R487). -/
theorem reg_record (e : ErrRec) (q : Reg) (h : q.off ≠ Reg.off ⟨.secState, 0, 0⟩) : (s.record e).reg q = s.reg q := by
  unfold record
  split
  · split <;> rfl
  · split
    · rfl
    · exact reg_setFld_other s _ _ _ _ _ q h

@[simp] theorem record_badMoulds (e : ErrRec) : (s.record e).badMoulds = s.badMoulds := by
  unfold record
  split
  · split <;> rfl
  · split <;> rfl

/-- At READY a record joins the PF's queue and its function's (12 R389). -/
theorem reported_record (e : ErrRec) (h : s.ready = true) : reported s (s.record e) e := by
  rw [record, if_pos h]
  by_cases hf : e.fn = 0
  · rw [if_pos hf]
    simp [hf, reported, pushRec, Sp.get_put_same]
  · have hne : e.fn.toNat ≠ 0 := fun h0 => hf (BitVec.eq_of_toNat_eq h0)
    rw [if_neg hf]
    simp [reported, pushRec, Sp.get_put, hne, hne.symm]

end Sys2Proof.Machine.State

namespace Sys2Proof.Machine

open Sys2Proof.Claims

/-! ### Places -/

/-- Every PROT register is the last word of a page (16 R467). -/
theorem protReg_off_mod {k n : Nat} {p : Reg} (h : protReg k n = some p) : p.off % 4096 = 4092 := by
  unfold protReg at h
  split at h
  · cases h
    show (0xffffc + k * 0x100000 + 0 * 0) % 4096 = 4092
    omega
  · simp only [Option.map_eq_some_iff] at h
    obtain ⟨kind, hk, rfl⟩ := h
    have hkind : kind ∈ [RegKind.benProt, .lthProt, .frgProt, .cruProt] := List.mem_of_getElem? hk
    have hplace : ∀ j ∈ [RegKind.benProt, .lthProt, .frgProt, .cruProt], j.place.base % 4096 = 4092
        ∧ j.place.ustride = 0x10000 := by decide
    obtain ⟨hbase, hstride⟩ := hplace kind hkind
    simp only [Reg.off, hstride]
    omega

/-! ### Commands of the host port -/

/-- A command of the host port completes with its effect while the port acts. -/
theorem completes_live {i : Instr} {s : State} {f : State → State} {P : State → Prop} (hp : portOn s)
    (hexec : exec i s = act s (live f)) (h : P (f s)) : completes i s P := by
  obtain ⟨hd, hperst⟩ := hp
  refine ⟨f s, ?_, h⟩
  rw [hexec]
  simp [act, live, hd, hperst]

/-! ### Writes -/

namespace State

variable (s : State)

/-- A write by type code takes one store, and nothing more for a register without moulds. -/
theorem plainWrite_noMould {r : Reg} (h : r.mask (· == .rwm) = 0) (v : W32) : s.plainWrite r v = s.putFields .rw r v := by
  simp [plainWrite, putMould, h]

/-- A write to a register without W1C fields merges the value into the fields of the type. -/
theorem putFields_noW1c {r : Reg} (h : r.mask (· == .w1c) = 0) (ft : FieldType) (v : W32) :
    s.putFields ft r v = s.setReg r (s.reg r &&& ~~~ r.mask (· == ft) ||| v &&& r.mask (· == ft)) := by
  show s.setReg r ((s.reg r &&& ~~~ r.mask (· == ft) ||| v &&& r.mask (· == ft)) &&& ~~~ (v &&& r.mask (· == .w1c))) = _
  rw [h, show v &&& (0 : W32) = 0#32 from BitVec.and_zero, BitVec.not_zero, BitVec.and_allOnes]

/-- A write to a register with moulds sets them (16 R471, R478). -/
theorem putMould_of_mask {r : Reg} (h : r.mask (· == .rwm) ≠ 0) (v : W32) : s.putMould r v
    = { s with moulds := Sp.put s.moulds r.off (v &&& r.mask (· == .rwm)), badMoulds := s.badMoulds.filter (· != r.off) } :=
  if_neg h

/-- Registers whose writes act by their type codes alone. -/
theorem writeReg_of_plain {r : Reg} (h : r.kind ∈ plainKinds ++ mouldKinds) (pf : Bool) (v : W32) :
    s.writeReg pf r v = s.plainWrite r v := by
  obtain ⟨k, u, n⟩ := r
  have hbench : ∀ k, s.benchRegWrite ⟨k, u, n⟩ v = s.plainWrite ⟨k, u, n⟩ v →
      s.writeReg pf ⟨k, u, n⟩ v
        = (if 0x2000000 ≤ Reg.off ⟨k, u, n⟩ then s.benchRegWrite ⟨k, u, n⟩ v else s.plainWrite ⟨k, u, n⟩ v) →
      s.writeReg pf ⟨k, u, n⟩ v = s.plainWrite ⟨k, u, n⟩ v := by
    intro k hplain hdefault
    rw [hdefault, hplain, ite_self]
  simp only [plainKinds, mouldKinds, List.cons_append, List.nil_append, List.mem_cons, List.not_mem_nil, or_false] at h
  rcases h with rfl | rfl | rfl | rfl | rfl | rfl | rfl | rfl | rfl | rfl | rfl | rfl | rfl | rfl | rfl | rfl | rfl | rfl | rfl
    | rfl | rfl | rfl <;> exact hbench _ rfl rfl

/-- The registers of the Journeyman bank's stack stand in the bench windows, and hold RW fields alone. -/
theorem bank_facts {r : Reg} (h : r.kind = .benXjSp ∨ r.kind = .benXjSl) :
    0x2000000 ≤ r.off ∧ r.mask (· == .rwm) = 0 ∧ r.mask (· == .w1c) = 0 := by
  obtain ⟨k, u, n⟩ := r
  rcases h with h | h <;> obtain rfl := h <;> refine ⟨?_, rfl, rfl⟩ <;> simp only [Reg.off, RegKind.place] <;> omega

/-- A write to them also clears the core's bits that they do not show (log 21). -/
theorem writeReg_bank {r : Reg} (h : r.kind = .benXjSp ∨ r.kind = .benXjSl) (pf : Bool) (v : W32) :
    s.writeReg pf r v = (s.setReg r (s.reg r &&& ~~~ r.mask (· == .rw) ||| v &&& r.mask (· == .rw))).updCore (benchOf r.u) fun c =>
      if r.kind = .benXjSp then { c with jspHi := 0 } else { c with jslHi := 0 } := by
  obtain ⟨hwindow, hmould, hw1c⟩ := bank_facts h
  rw [← putFields_noW1c s hw1c, ← plainWrite_noMould s hmould]
  obtain ⟨k, u, n⟩ := r
  rcases h with h | h <;> obtain rfl := h <;> exact if_pos hwindow

end State

end Sys2Proof.Machine
end

section
/-! SUPPORT. What reset leaves. -/

namespace Sys2Proof.Proofs

open Sys2Proof.Machine Sys2Proof.Claims

/-- No register has been written at reset, so each reads as its reset column says (00 R13). -/
theorem reg_reset (r : Reg) : State.reset.reg r = r.reset := rfl

/-- The kinds listed have one reset value for every unit, the sum of their fields' (00 R13). -/
theorem resetOf_of_resetRows : ∀ e ∈ resetRows, resetOf e.1.fields = e.2 ∧ e.1 ≠ .blkProt ∧ e.1 ≠ .pexFnCtl := by
  decide

/-- A kind whose reset value does not turn on the unit. -/
theorem reset_eq_resetOf {k : RegKind} (hblk : k ≠ .blkProt) (hfn : k ≠ .pexFnCtl) (u n : Nat) :
    Reg.reset ⟨k, u, n⟩ = resetOf k.fields := by
  unfold Reg.reset
  split
  · exact absurd ‹_› hblk
  · exact absurd ‹_› hfn
  · rfl

/-- A fresh core stands at Master level with no loop. -/
theorem coreLegal_fresh (b : BenchId) (draw : Nat) : coreLegal (Bench.fresh b draw) :=
  ⟨(by decide : (2 : BitVec 2) ≠ 3), Nat.zero_le _⟩

theorem legalLevels_reset : legalLevels State.reset :=
  ⟨fun b => coreLegal_fresh b 0, fun _ => ⟨(by decide : wordBits [] 2 5 4 ≤ 1), fun _ => coreLegal_fresh 0 0⟩⟩

/-- Settles O57: at reset every part of the state is its default, which each clause reads off. -/
theorem resetState : Obligations.ResetState := by
  refine ⟨fun e he u n => ?_, fun b => ⟨rfl, rfl, rfl, rfl⟩, rfl, rfl, rfl, legalLevels_reset, rfl, rfl, rfl⟩
  obtain ⟨hval, hblk, hfn⟩ := resetOf_of_resetRows e he
  rw [reg_reset, reset_eq_resetOf hblk hfn, hval]

end Sys2Proof.Proofs
end

section
/-! SUPPORT. Writes, pours, posted writes, parity and assay of the register interface (16 R466-R478). -/

namespace Sys2Proof.Proofs

open Sys2Proof.Machine Sys2Proof.Claims

/-! ### Writes by the PF's path -/

/-- A write by the PF reaches the register at its offset, where the device is not in Doze and the offset is no MSI-X table's. -/
theorem pathWrite_pf_some {s : State} {off : Nat} {r : Reg} (v : W32) (hdoze : s.fld .pwrStat 0 31 30 ≠ 2) (halign : off % 4 = 0)
    (hmsix : s.pathMsix .pf off = none) (hr : s.pathReg .pf off = some r) : s.pathWrite .pf off v = s.writeReg true r v := by
  have hstay : s.leaveDoze = s := if_neg fun h => hdoze h.1
  simp only [State.pathWrite, hstay, halign, hmsix, hr, ne_eq, not_true_eq_false, if_false]

/-- A write where the PF reaches nothing changes nothing. -/
theorem pathWrite_pf_none {s : State} {off : Nat} (v : W32) (hdoze : s.fld .pwrStat 0 31 30 ≠ 2) (halign : off % 4 = 0)
    (hmsix : s.pathMsix .pf off = none) (hr : s.pathReg .pf off = none) : s.pathWrite .pf off v = s := by
  have hstay : s.leaveDoze = s := if_neg fun h => hdoze h.1
  simp only [State.pathWrite, hstay, halign, hmsix, hr, ne_eq, not_true_eq_false, if_false]

theorem rwm_of_plainKinds : ∀ k ∈ plainKinds, maskOf (· == .rwm) k.fields = 0 := by decide

/-- The moulded kinds have moulds and no field that a write changes at once. -/
theorem masks_of_mouldKinds : ∀ k ∈ mouldKinds, maskOf (· == .rwm) k.fields ≠ 0 ∧ maskOf (· == .rw) k.fields = 0
    ∧ maskOf (· == .w1c) k.fields = 0 := by decide

/-- A write to a register without moulds stores its RW and W1C fields and touches nothing else (00 R11, R14). -/
theorem writeReg_plainKinds (s : State) {r : Reg} (h : r.kind ∈ plainKinds) (pf : Bool) (v : W32) :
    s.writeReg pf r v = s.putFields .rw r v := by
  rw [State.writeReg_of_plain s (List.mem_append_left _ h), State.plainWrite_noMould s (rwm_of_plainKinds _ h)]

/-- A write to a moulded register keeps its applied copy and sets its mould (16 R471). -/
theorem writeReg_mouldKinds (s : State) {r : Reg} (h : r.kind ∈ mouldKinds) (pf : Bool) (v : W32) :
    regTakes s (s.writeReg pf r v) r (s.reg r)
      ∧ (s.writeReg pf r v).moulds = Sp.put s.moulds r.off (v &&& maskOf (· == .rwm) r.kind.fields) := by
  obtain ⟨hm, hrw, hw1c⟩ := masks_of_mouldKinds _ h
  have hput : s.putFields .rw r v = s.setReg r (s.reg r) := by
    rw [State.putFields_noW1c s hw1c, show r.mask (· == .rw) = 0 from hrw, merged_zero]
  rw [State.writeReg_of_plain s (List.mem_append_right _ h), State.plainWrite, State.putMould_of_mask _ hm, hput]
  exact ⟨State.regTakes_of_regs rfl, rfl⟩

/-! ### POUR -/

/-- A POUR applies an intact mould of a register that any state may pour (16 R472). -/
theorem pourReg_mouldKinds (s : State) {r : Reg} (h : r.kind ∈ mouldKinds) (hgood : r.off ∉ s.badMoulds) (m : W32) :
    s.pourReg r m = { s.setReg r (s.reg r &&& ~~~ r.mask (· == .rwm) ||| m) with moulds := Sp.erase s.moulds r.off } := by
  obtain ⟨k, u, n⟩ := r
  rw [State.pourReg, if_neg (by simpa using hgood)]
  simp only [mouldKinds, List.mem_cons, List.not_mem_nil, or_false] at h
  rcases h with rfl | rfl | rfl | rfl | rfl | rfl <;> rfl

/-- None of these registers configures the yard. -/
theorem yard_of_mouldKinds {r : Reg} (h : r.kind ∈ mouldKinds) : r.yard = false := by
  obtain ⟨k, u, n⟩ := r
  simp only [mouldKinds, List.mem_cons, List.not_mem_nil, or_false] at h
  rcases h with rfl | rfl | rfl | rfl | rfl | rfl <;> rfl

/-- A POUR that names the register of the only mould pours that register. -/
theorem pour_single_named {s : State} {off : Nat} {m mask : W32} {r : Reg} (hs : s.moulds = [(off, m)])
    (hname : pourNames mask off = some r) (hyard : r.yard = false) : s.pour mask = s.pourReg r m := by
  simp [State.pour, hs, hname, hyard]

/-- A POUR that does not name it changes nothing. -/
theorem pour_single_unnamed {s : State} {off : Nat} {m mask : W32} (hs : s.moulds = [(off, m)]) (hname : pourNames mask off = none) :
    s.pour mask = s := by
  simp [State.pour, hs, hname]

/-! ### Posted writes -/

/-- The lot entry lands, and BUSY of HMK clears (16 R475; 09 R305). -/
theorem postedWriteLand_lot {s : State} {off lot : Nat} {v : W32} (h : Sp.find s.posted 10 = some (off, v, lot)) :
    postedWriteLand 10 s = { ({ s with posted := Sp.erase s.posted 10 } : State).setFld .hmkLotStat 0 0 0 0 with
      mem := { s.mem with lots := Sp.put s.mem.lots lot v } } := by
  simp only [postedWriteLand, h]
  rfl

/-- A posted field of Sheler lands, and BUSY of SHL clears (16 R475). -/
theorem postedWriteLand_sheler {s : State} {off lot : Nat} {v : W32} {r : Reg} (h : Sp.find s.posted 4 = some (off, v, lot))
    (hr : regAt off = some r) :
    postedWriteLand 4 s = (({ s with posted := Sp.erase s.posted 4 } : State).putFields .rwp r v).setFld .shlFilt 0 31 31 0 := by
  simp only [postedWriteLand, h, hr]
  rfl

/-- The posted registers of Sheler that share BUSY with SHL_FILT stand apart from it. -/
theorem off_ne_shlFilt {r : Reg} (h : r.kind ∈ [RegKind.shlRuleLo, .shlRuleHi, .shlSensSel]) : r.off ≠ Reg.off ⟨.shlFilt, 0, 0⟩ := by
  obtain ⟨k, u, n⟩ := r
  simp only [List.mem_cons, List.not_mem_nil, or_false] at h
  rcases h with rfl | rfl | rfl <;> simp only [Reg.off, RegKind.place] <;> omega

theorem w1c_of_shelerPosted : ∀ k ∈ [RegKind.shlRuleLo, .shlRuleHi, .shlSensSel], maskOf (· == .w1c) k.fields = 0 := by decide

/-! ### Parity and assay -/

/-- A scrub that finds one register of a block in parity mode whose parity fails makes a Config parity fault (16 R477, R478). -/
theorem completes_parityScrub_single {s : State} {off k : Nat} {b : BenchId} {mould : Bool} {p r : Reg} {P : State → Prop}
    (hport : portOn s) (hk : blockBench off = (k, b.val)) (hp : protReg k b.val = some p) (hr : regAt off = some r)
    (hmode : (s.reg p).getLsbD 0 = false) (h : P (s.parityFault p k b.val off mould)) :
    completes (.parityScrub k [(off, mould)]) s P := by
  refine completes_live hport rfl ?_
  simpa only [List.foldl_cons, List.foldl_nil, hk, hp, hr, hmode, decide_true, Bool.not_false, Bool.and_self, if_true] using h

/-- The state of which a Config parity fault makes its record: PFLT is set, the failure counted, and a bad mould withheld (16 R478). -/
def parityMark (s : State) (p : Reg) (off : Nat) (mould : Bool) : State :=
  let u := (s.setReg p (setBits (s.reg p) 1 1 1)).satAdd .mldStatus 0 15 0 1
  if mould then { u with badMoulds := off :: u.badMoulds.filter (· != off) } else u

theorem parityFault_eq_record (s : State) (p : Reg) (k n off : Nat) (mould : Bool) : ∃ e : ErrRec,
    s.parityFault p k n off mould = (parityMark s p off mould).record e
      ∧ e.src = 0xA ∧ e.event = 1 ∧ e.unit_ = BitVec.ofNat 16 (k * 256 + n) :=
  ⟨_, rfl, rfl, rfl, rfl⟩

theorem reg_parityMark (s : State) (p : Reg) (off : Nat) (mould : Bool) (q : Reg) :
    (parityMark s p off mould).reg q = ((s.setReg p (setBits (s.reg p) 1 1 1)).satAdd .mldStatus 0 15 0 1).reg q := by
  unfold parityMark
  cases mould <;> rfl

theorem errq_parityMark (s : State) (p : Reg) (off : Nat) (mould : Bool) : (parityMark s p off mould).errq = s.errq := by
  unfold parityMark
  cases mould <;> rfl

/-- What a Config parity fault leaves (16 R478). -/
theorem parityFault_spec (s : State) {p : Reg} {k n : Nat} (hp : protReg k n = some p) (off : Nat) (mould : Bool) :
    let t := s.parityFault p k n off mould
    (t.reg p).getLsbD 1 = true ∧ t.fld .mldStatus 0 15 0 = min (s.fld .mldStatus 0 15 0 + 1) 65535
      ∧ (mould = true → off ∈ t.badMoulds)
      ∧ (s.ready = true →
        ∃ e : ErrRec, e.src = 0xA ∧ e.event = 1 ∧ e.unit_ = BitVec.ofNat 16 (k * 256 + n) ∧ reported s t e) := by
  have hoff := protReg_off_mod hp
  have hstatus : p.off ≠ Reg.off ⟨.mldStatus, 0, 0⟩ := fun h => absurd (h ▸ hoff) (by decide)
  have hstate : p.off ≠ Reg.off ⟨.secState, 0, 0⟩ := fun h => absurd (h ▸ hoff) (by decide)
  obtain ⟨e, hfault, hsrc, hevent, hunit⟩ := parityFault_eq_record s p k n off mould
  simp only [hfault]
  refine ⟨?_, ?_, ?_, fun hready => ⟨e, hsrc, hevent, hunit, ?_⟩⟩
  · rw [State.reg_record _ _ _ hstate, reg_parityMark, State.satAdd, State.reg_setFld_other _ _ _ _ _ _ _ hstatus,
      State.reg_setReg_same, getLsbD_setBits _ _ _ _ _ (by decide)]
    rfl
  · rw [State.fld, State.reg_record _ _ _ (by decide), reg_parityMark, ← State.fld, State.fld_satAdd_same _ _ _ _ _ (by decide),
      State.fld, State.reg_setReg_other _ _ _ _ hstatus.symm]
    rfl
  · rintro rfl
    simp [parityMark]
  · have hkeep : (parityMark s p off mould).ready = s.ready := by
      rw [State.ready, State.fld, reg_parityMark, State.satAdd, State.reg_setFld_other _ _ _ _ _ _ _ (by decide),
        State.reg_setReg_other _ _ _ _ hstate.symm]
      rfl
    have hrec := State.reported_record (parityMark s p off mould) e (hkeep.trans hready)
    rwa [reported, errq_parityMark] at hrec

/-- A vote of a block in assay mode on one register of the block (16 R477). -/
theorem completes_assayVote_single {s : State} {k : Nat} {b : BenchId} {f : Flip} {p r : Reg} {P : State → Prop} (hport : portOn s)
    (hp : protReg k b.val = some p) (hr : regAt f.off = some r) (hk : blockBench f.off = (k, if k < 17 then 0 else b.val))
    (hmode : (s.reg p).getLsbD 0 = true) (h : P (s.vote p r f)) : completes (.assayVote k b [f]) s P := by
  refine completes_live hport rfl ?_
  simpa only [List.foldl_cons, List.foldl_nil, hp, hr, hk, hmode, Bool.not_true, Bool.false_eq_true, if_false, if_true] using h

/-- Two copies that agree outvote the third, whichever it is. -/
theorem majority_first (v w : W32) : majority w v v = v := by
  ext i hi
  simp only [majority, BitVec.getElem_or, BitVec.getElem_and]
  cases v[i] <;> simp

theorem majority_second (v w : W32) : majority v w v = v := by
  ext i hi
  simp only [majority, BitVec.getElem_or, BitVec.getElem_and]
  cases v[i] <;> simp

theorem majority_third (v w : W32) : majority v v w = v := by
  ext i hi
  simp only [majority, BitVec.getElem_or, BitVec.getElem_and]
  cases v[i] <;> simp

/-- The fields that three copies hold of a register, or of its mould (16 R477). -/
theorem assayMask (r : Reg) (mould : Bool) :
    maskOf (fun t => t == .rwm || (!mould && (t == .rw || t == .rwp || t == .rwa || t == .w1c))) r.kind.fields
      = if mould then r.mask (· == .rwm) else r.writable := by
  have hsame : (fun t : FieldType => t == .rwm || (!mould && (t == .rw || t == .rwp || t == .rwa || t == .w1c)))
      = if mould then (· == .rwm) else fun t => t == .rw || t == .rwm || t == .rwp || t == .rwa || t == .w1c := by
    funext t
    cases mould <;> cases t <;> rfl
  rw [hsame]
  cases mould <;> rfl

/-- One flipped copy is outvoted (16 R477). -/
theorem voted_single {off : Nat} {mould : Bool} {x : W32} {f : Flip}
    (hf : f ∈ [{ off, mould, x }, { off, mould, y := x }, ({ off, mould, z := x } : Flip)]) :
    f.off = off ∧ f.mould = mould ∧ f.x ||| f.y ||| f.z = x ∧ ∀ v m, voted f v m = v := by
  simp only [List.mem_cons, List.not_mem_nil, or_false] at hf
  rcases hf with rfl | rfl | rfl <;> simp [voted, majority_first, majority_second, majority_third]

/-- A vote that outvotes the flipped copies restores the register and its mould, and counts one correction (16 R477). -/
theorem vote_restores {s : State} {p r : Reg} {f : Flip}
    (hhit : (f.x ||| f.y ||| f.z) &&& (if f.mould then r.mask (· == .rwm) else r.writable) ≠ 0)
    (hvoted : ∀ v m, voted f v m = v) (hne : r.off ≠ p.off) :
    (s.vote p r f).reg r = s.reg r ∧ bits ((s.vote p r f).reg p) 31 16 = min 65535 (bits (s.reg p) 31 16 + 1)
      ∧ { s.vote p r f with regs := s.regs } = s := by
  have hcount : ∀ n, bits (setBits (s.reg p) 31 16 (min 0xFFFF n)) 31 16 = min 65535 n := fun n => by
    rw [bits_setBits_same _ _ (by decide)]
    exact Nat.mod_eq_of_lt (by omega)
  rw [State.vote, if_neg hhit]
  cases hm : f.mould with
  | true =>
    simp only [hvoted, if_true]
    exact ⟨State.reg_setReg_other s p r _ hne, by rw [State.reg_setReg_same, hcount], rfl⟩
  | false =>
    simp only [hvoted, Bool.false_eq_true, if_false]
    refine ⟨?_, ?_, rfl⟩
    · rw [State.reg_setReg_other _ _ _ _ hne, State.reg_setReg_same]
    · rw [State.reg_setReg_same, State.reg_setReg_other _ _ _ _ hne.symm, hcount]

/-- A vote on the applied copies leaves what the three give. -/
theorem reg_vote_applied {s : State} {p r : Reg} {f : Flip} (hm : f.mould = false) (hhit : (f.x ||| f.y ||| f.z) &&& r.writable ≠ 0)
    (hne : r.off ≠ p.off) : (s.vote p r f).reg r = voted f (s.reg r) r.writable := by
  simp only [State.vote, hm, Bool.false_eq_true, if_false]
  rw [if_neg hhit, State.reg_setReg_other _ _ _ _ hne, State.reg_setReg_same]

end Sys2Proof.Proofs
end

section
/-! SUPPORT. The commands of the register interface, one rule for each case, and the claim about them. -/

namespace Sys2Proof.Proofs

open Sys2Proof.Machine Sys2Proof.Claims

section RegisterWrite

/-! ### REGISTER_WRITE by the PF, outside Doze and off the MSI-X tables -/

variable {s : State} {off : Nat} {r : Reg} (v : W32) (hport : portOn s) (hdoze : s.fld .pwrStat 0 31 30 ≠ 2) (halign : off % 4 = 0)
  (hmsix : s.pathMsix .pf off = none)

include hport hdoze halign hmsix

theorem completes_registerWrite_some {P : State → Prop} (hr : s.pathReg .pf off = some r) (h : P (s.writeReg true r v)) :
    completes (.registerWrite .pf off v) s P :=
  completes_live hport rfl (by rwa [pathWrite_pf_some v hdoze halign hmsix hr])

theorem registerWrite_plain (hr : s.pathReg .pf off = some r) (hkind : r.kind ∈ plainKinds) :
    completes (.registerWrite .pf off v) s fun t =>
      regTakes s t r ((s.reg r &&& ~~~ r.mask (· == .rw) ||| v &&& r.mask (· == .rw)) &&& ~~~ (v &&& r.mask (· == .w1c)))
        ∧ { t with regs := s.regs } = s := by
  refine completes_registerWrite_some v hport hdoze halign hmsix hr ?_
  rw [writeReg_plainKinds s hkind]
  exact ⟨State.regTakes_setReg s r _, rfl⟩

theorem registerWrite_mould (hr : s.pathReg .pf off = some r) (hkind : r.kind ∈ mouldKinds) :
    completes (.registerWrite .pf off v) s fun t =>
      regTakes s t r (s.reg r) ∧ Sp.find t.moulds r.off = some (v &&& r.mask (· == .rwm))
        ∧ ∀ o, o ≠ r.off → Sp.find t.moulds o = Sp.find s.moulds o := by
  refine completes_registerWrite_some v hport hdoze halign hmsix hr ?_
  obtain ⟨htakes, hmoulds⟩ := writeReg_mouldKinds s hkind true v
  refine ⟨htakes, ?_, fun o ho => ?_⟩
  · rw [hmoulds, Sp.find_put, if_pos rfl]
    rfl
  · rw [hmoulds, Sp.find_put, if_neg ho]

/-- The bits that BEN_XJ_SP and BEN_XJ_SL do not show are cleared in the core (log 21). -/
theorem registerWrite_bank (hr : s.pathReg .pf off = some r) (hkind : r.kind = .benXjSp ∨ r.kind = .benXjSl) :
    completes (.registerWrite .pf off v) s fun t =>
      let c := (s.bench (benchOf r.u)).core
      regTakes s t r (s.reg r &&& ~~~ r.mask (· == .rw) ||| v &&& r.mask (· == .rw))
        ∧ onlyBench { s with regs := t.regs } t (benchOf r.u)
        ∧ t.bench (benchOf r.u) = { s.bench (benchOf r.u) with
            core := if r.kind = .benXjSp then { c with jspHi := 0 } else { c with jslHi := 0 } } := by
  refine completes_registerWrite_some v hport hdoze halign hmsix hr ?_
  rw [State.writeReg_bank s hkind]
  refine ⟨State.regTakes_of_regs rfl, ?_, ?_⟩
  · rw [onlyBench, State.bench_updCore_same]
    rfl
  · rw [State.bench_updCore_same]
    rfl

theorem registerWrite_nothing (hr : s.pathReg .pf off = none) : completes (.registerWrite .pf off v) s fun t => t = s :=
  completes_live hport rfl (pathWrite_pf_none v hdoze halign hmsix hr)

end RegisterWrite

/-! ### MLD_POUR -/

theorem mldPour_named {s : State} {off : Nat} {m mask : W32} {r : Reg} (hport : portOn s) (hmoulds : s.moulds = [(off, m)])
    (hkind : r.kind ∈ mouldKinds) (hoff : r.off = off) (hgood : off ∉ s.badMoulds) (hname : pourNames mask off = some r) :
    completes (.mldPour mask) s fun t =>
      regTakes s t r (s.reg r &&& ~~~ r.mask (· == .rwm) ||| m) ∧ t.moulds = []
        ∧ { t with regs := s.regs, moulds := s.moulds } = s := by
  refine completes_live hport rfl ?_
  rw [pour_single_named hmoulds hname (yard_of_mouldKinds hkind), pourReg_mouldKinds s hkind (hoff ▸ hgood)]
  refine ⟨State.regTakes_of_regs rfl, ?_, rfl⟩
  simp [hmoulds, hoff, Sp.erase]

/-! ### POSTED_WRITE_LAND and POUR_FIELD_LAND -/

theorem postedWriteLand_lot_completes {s : State} {off lot : Nat} {v : W32} (hport : portOn s)
    (h : Sp.find s.posted 10 = some (off, v, lot)) :
    completes (.postedWriteLand 10) s fun t => t.lot lot = v ∧ (∀ n, n ≠ lot → t.lot n = s.lot n) ∧ t.fld .hmkLotStat 0 0 0 = 0
      ∧ Sp.find t.posted 10 = none := by
  refine completes_live hport rfl ?_
  rw [postedWriteLand_lot h]
  refine ⟨Sp.get_put_same _ _ _ _, fun n hn => Sp.get_put_other _ _ _ hn, ?_, ?_⟩
  · exact State.fld_setFld_same _ _ _ _ _ (by decide)
  · exact (Sp.find_erase _ _ _).trans (if_pos rfl)

theorem postedWriteLand_sheler_completes {s : State} {off lot : Nat} {v : W32} {r : Reg} (hport : portOn s)
    (h : Sp.find s.posted 4 = some (off, v, lot)) (hreg : regAt off = some r)
    (hkind : r.kind ∈ [RegKind.shlRuleLo, .shlRuleHi, .shlSensSel]) :
    completes (.postedWriteLand 4) s fun t => Sp.find t.posted 4 = none ∧ t.fld .shlFilt 0 31 31 = 0
      ∧ t.reg r &&& r.mask (· == .rwp) = v &&& r.mask (· == .rwp) := by
  refine completes_live hport rfl ?_
  rw [postedWriteLand_sheler h hreg]
  refine ⟨(Sp.find_erase _ _ _).trans (if_pos rfl), State.fld_setFld_same _ _ _ _ _ (by decide), ?_⟩
  rw [State.reg_setFld_other _ _ _ _ _ _ _ (off_ne_shlFilt hkind), State.putFields_noW1c _ (w1c_of_shelerPosted _ hkind),
    State.reg_setReg_same, merged_and_mask]

theorem pourFieldLand_completes {s : State} {off : Nat} (hport : portOn s) (h : off ∈ s.pouring) :
    completes (.pourFieldLand off) s fun t => off ∉ t.pouring ∧ t.fld .mldStatus 0 31 31 = if t.pouring = [] then 0 else 1 := by
  refine completes_live hport rfl ?_
  rw [if_pos (List.contains_iff_mem.mpr h)]
  refine ⟨(by simp : off ∉ s.pouring.filter (· != off)), (State.fld_setFld_same _ _ _ _ _ (by decide)).trans ?_⟩
  simp only [State.setFld, State.setReg_pouring, List.isEmpty_iff]
  split <;> rfl

/-! ### PROT_MODE_WRITE -/

theorem protModeWrite_completes {s : State} {k : Nat} {b : BenchId} {mode : Bool} {p : Reg} (hport : portOn s)
    (hprot : protReg k b.val = some p) :
    completes (.protModeWrite k b mode) s fun t => (∃ v, regTakes s t p v) ∧ (t.reg p).getLsbD 0 = mode
      ∧ (∀ i, 0 < i → (t.reg p).getLsbD i = (s.reg p).getLsbD i) ∧ { t with regs := s.regs } = s := by
  refine completes_live hport rfl ?_
  simp only [hprot]
  refine ⟨⟨_, State.regTakes_setReg s p _⟩, ?_, fun i hi => ?_, rfl⟩
  · rw [State.reg_setReg_same, getLsbD_setBits _ _ _ _ _ (by decide)]
    cases mode <;> rfl
  · rw [State.reg_setReg_same]
    by_cases h32 : i < 32
    · rw [getLsbD_setBits _ _ _ _ _ h32, if_neg (by omega)]
    · rw [BitVec.getLsbD_of_ge _ _ (by omega), BitVec.getLsbD_of_ge _ _ (by omega)]

/-! ### ASSAY_VOTE -/

section AssayVote

variable {s : State} {k off : Nat} {b : BenchId} {x : W32} {p r : Reg} (hport : portOn s) (hprot : protReg k b.val = some p)
  (hreg : regAt off = some r) (hblock : blockBench off = (k, if k < 17 then 0 else b.val)) (hmode : (s.reg p).getLsbD 0 = true)
  (hne : r.off ≠ p.off)

include hport hprot hreg hblock hmode hne

theorem assayVote_restores {mould : Bool} {f : Flip}
    (hhit : x &&& maskOf (fun t => t == .rwm || (!mould && (t == .rw || t == .rwp || t == .rwa || t == .w1c))) r.kind.fields ≠ 0)
    (hf : f ∈ [{ off, mould, x }, { off, mould, y := x }, ({ off, mould, z := x } : Flip)]) :
    completes (.assayVote k b [f]) s fun t => t.reg r = s.reg r ∧ bits (t.reg p) 31 16 = min 65535 (bits (s.reg p) 31 16 + 1)
      ∧ { t with regs := s.regs } = s := by
  obtain ⟨hoff, hmould, hany, hvoted⟩ := voted_single hf
  rw [assayMask] at hhit
  exact completes_assayVote_single hport hprot (hoff ▸ hreg) (hoff ▸ hblock) hmode
    (vote_restores (by rwa [hany, hmould]) hvoted hne)

theorem assayVote_flips (hhit : x &&& r.writable ≠ 0) :
    completes (.assayVote k b [{ off, x, z := x }]) s fun t => t.reg r = s.reg r ^^^ (x &&& r.writable) := by
  have hany : (x ||| 0 ||| x) &&& r.writable ≠ 0 := by simpa using hhit
  refine completes_assayVote_single hport hprot hreg hblock hmode ?_
  rw [reg_vote_applied (f := { off, x, z := x }) rfl hany hne]
  exact majority_second _ _

end AssayVote

/-- Settles O53: each clause is the rule of its command above. -/
theorem registerWrites : Obligations.RegisterWrites := by
  refine ⟨fun off v s hport hdoze halign hmsix => ⟨?_, ?_, ?_, ?_⟩,
    fun mask m off r s hport hmoulds hreg hkind hoff hgood => ⟨?_, ?_⟩, fun off lot v s hport => ⟨?_, ?_, ?_⟩,
    fun off k b mould p r s hport hblock hprot hreg hmode => ?_, fun k b mode p s hport hprot => ?_,
    fun k off b x p r s hport hprot hreg hblock hmode hne => ⟨?_, ?_⟩⟩
  · exact fun r hr hkind => registerWrite_plain v hport hdoze halign hmsix hr hkind
  · exact fun r hr hkind => registerWrite_mould v hport hdoze halign hmsix hr hkind
  · exact fun r hr hkind => registerWrite_bank v hport hdoze halign hmsix hr hkind
  · exact fun hr => registerWrite_nothing v hport hdoze halign hmsix hr
  · exact fun hname => mldPour_named hport hmoulds hkind hoff hgood hname
  · exact fun hname => completes_live hport rfl (pour_single_unnamed hmoulds hname)
  · exact fun hposted => postedWriteLand_lot_completes hport hposted
  · exact fun r hposted hreg hkind => postedWriteLand_sheler_completes hport hposted hreg hkind
  · exact fun hpouring => pourFieldLand_completes hport hpouring
  · exact completes_parityScrub_single hport hblock hprot hreg hmode (parityFault_spec s hprot off mould)
  · exact protModeWrite_completes hport hprot
  · exact fun mould hhit f hf => assayVote_restores hport hprot hreg hblock hmode hne hhit hf
  · exact fun hhit => assayVote_flips hport hprot hreg hblock hmode hne hhit

end Sys2Proof.Proofs
end
